-- ==== Sys2Proof/Word.lean ====
section
/-! DEFINITION. The word types of the part's ports and the index types of its tables (00_scope.md, "conventions"; R179, R183, R184). -/

namespace Sys2Proof

/-- A word of the Request Port: 16 bits (R164). -/
abbrev Word := BitVec 16

/-- A byte of the Lookup Port (R149). -/
abbrev Byte := BitVec 8

/-- A word of the Span Output Port: 32 bits (R183). -/
abbrev SpanWord := BitVec 32

/-- A frame number, reckoned modulo 65536 (00_scope.md, "conventions"; R104). -/
abbrev Frame := BitVec 16

/-- A request's tag, echoed in its answer (R179, R181). -/
abbrev Tag := BitVec 8

/-- A client number, 0 to 15 (R21). -/
abbrev ClientId := Fin 16

/-- A region number, 0 to 63 (R1). -/
abbrev RegionId := Fin 64

end Sys2Proof
end

