-- ==== Sys2Proof/Config.lean ====
section
/-! DEFINITION. The fixed capacities and limits of the part, each with the rule that states it.
The spec leaves no value of the part open, so there is no free value here (log 20). -/

namespace Sys2Proof.Config

/-- The supervisor is client 0 (R26). -/
abbrev supervisor : ClientId := 0

/-- The Request Queue holds 0 to 16 messages (R167). -/
abbrev requestQueueSize : Nat := 16

/-- The Answer Queue holds 16 answers (R82). -/
abbrev answerQueueSize : Nat := 16

/-- A message is at most 16 words (R165). -/
abbrev longestMessage : Nat := 16

/-- Each client's move list holds at most 8 moves (R44). -/
abbrev moveListSize : Nat := 8

/-- At most 4 regions of the GUARDED band are RESERVED or LIVE (R25). -/
abbrev guardedLimit : Nat := 4

/-- A line is described by at most 32 spans (R136). -/
abbrev spanLimit : Nat := 32

/-- The Span Queue holds 0 to 2 finished lines (R141). -/
abbrev spanQueueSize : Nat := 2

/-- A point message is 5 bytes (R150). -/
abbrev pointBytes : Nat := 5

/-- The Point Queue holds 0 to 4 points (R152). -/
abbrev pointQueueSize : Nat := 4

/-- The Lookup Answer Queue holds 0 to 4 answers (R161). -/
abbrev lookupAnswerQueueSize : Nat := 4

/-- The line counter stays at 4095 (R105). -/
abbrev lastLine : Nat := 4095

/-- The byte a read of an empty Lookup Answer Queue returns (R162). -/
abbrev lookupFiller : Byte := 255

end Sys2Proof.Config
end

