-- ==== Sys2Proof/Syntax.lean ====
section
/-! DEFINITION. The commands of the part: one constructor for each row of spec/opcode_table.json.
The table gives no operands; a constructor carries the data of the bus transaction it stands for (log 1). -/

namespace Sys2Proof

/-- The level of an input pin. -/
inductive PinLevel where
  | low
  | high
  deriving DecidableEq, Repr

/-- An edge of RQ_CLK that changes no table, queue, flag or assembly (R164; log 11). -/
inductive QuietAccess where
  /-- A write of `w` to the ANSWER window. -/
  | answerWrite (w : Word)
  /-- A read of the REQUEST window. -/
  | requestRead
  /-- A read of the ENABLE window. -/
  | enableRead
  /-- No transaction. -/
  | noTransaction
  deriving DecidableEq, Repr

/-- Where a FRAME_START taken by the Lease Monitor falls within the piece of work of a QUERY_CLIENT,
which reads a lease counter after reloading one (R36, R95; log 7). -/
inductive QueryRace where
  /-- No FRAME_START is taken within the piece. -/
  | apart
  /-- The FRAME_START is taken before the reload claim. -/
  | beforeReload
  /-- The FRAME_START is taken between the reload and the reading. -/
  | afterReload
  deriving DecidableEq, Repr

/-- Whether the Lease Monitor takes a FRAME_START within the piece of work of a request that loads or stops counters, before
the load or the stop (R31, R90, R93, R96, R102; log 7). -/
inductive LeaseRace where
  /-- None is taken there. -/
  | apart
  /-- One is taken within the piece, before the load or the stop. -/
  | frameFirst
  deriving DecidableEq, Repr

/-- The commands: the 43 rows of spec/opcode_table.json, in the table's order. -/
inductive Instr where
  /-- DEVICE_RESET (R91): RESET goes or is held low (`level` low), or the reset ends with RESET high (log 10). -/
  | deviceReset (level : PinLevel := .high)
  /-- REQUEST_WORD_WRITE (R166): a host write of `w` to the REQUEST window. -/
  | requestWordWrite (w : Word)
  /-- ANSWER_READ (R170): a host read of the ANSWER window. -/
  | answerRead
  /-- ANSWER_WINDOW_WRITE (R164): a host write to the ANSWER window, or another edge without effect (log 11). -/
  | answerWindowWrite (access : QuietAccess)
  /-- STATUS_READ (R172): a host read of the STATUS window. -/
  | statusRead
  /-- EVENT_FLAG_CLEAR (R174): a host write of `w` to the STATUS window. -/
  | eventFlagClear (w : Word)
  /-- ASSEMBLY_ABANDON (R168): a host write of `w`, abandon bit at 1, to the STATUS window. -/
  | assemblyAbandon (w : Word)
  /-- ENABLE_WRITE (R176): a host write of `w` to the ENABLE window. -/
  | enableWrite (w : Word)
  /-- MALFORMED_MESSAGE (R79): the engine takes a malformed message. -/
  | malformedMessage
  /-- CREATE (R55): the engine takes a CREATE. -/
  | create
  /-- EDIT (R57). -/
  | edit
  /-- RETIRE (R58). -/
  | retire
  /-- RESTACK (R46). -/
  | restack
  /-- DISCARD (R60). -/
  | discard
  /-- PUBLISH (R63). -/
  | publish
  /-- RENEW (R61). -/
  | renew
  /-- QUERY_REGION (R19). -/
  | queryRegion
  /-- QUERY_CLIENT (R36); `race` places a FRAME_START within the piece (log 7). -/
  | queryClient (race : QueryRace)
  /-- RESUME (R102); `race` places a FRAME_START within the piece (log 7). -/
  | resume (race : LeaseRace := .apart)
  /-- OPEN_CLIENT (R29); `race` places a FRAME_START within the piece (log 7). -/
  | openClient (race : LeaseRace := .apart)
  /-- CLOSE_CLIENT (R31); `race` places a FRAME_START within the piece (log 7). -/
  | closeClient (race : LeaseRace := .apart)
  /-- CLEAR_ALL (R89); `race` places a FRAME_START within the piece (log 7). -/
  | clearAll (race : LeaseRace := .apart)
  /-- SET_PANEL (R109). -/
  | setPanel
  /-- HELD_ANSWER_PLACEMENT (R82). -/
  | heldAnswerPlacement
  /-- LAPSE_NOTICE (R98). -/
  | lapseNotice
  /-- COPY_END_APPLICATION (R87). -/
  | copyEndApplication
  /-- RELOAD_CLAIM (R95). -/
  | reloadClaim
  /-- LEASE_LOAD (R93). -/
  | leaseLoad
  /-- LEASE_STOP (R96). -/
  | leaseStop
  /-- LEASE_FRAME_START (R94): the Lease Monitor takes a FRAME_START. -/
  | leaseFrameStart
  /-- LEASE_EXPIRY (R94): a counter that reached 0 stops; it is part of the decrement (log 6). -/
  | leaseExpiry
  /-- FRAME_START (R104): the Timing Input takes a FRAME_START. -/
  | frameStart
  /-- SNAPSHOT_FRAME_START (R115): the Snapshot Unit takes a FRAME_START. -/
  | snapshotFrameStart
  /-- COPY_START (R118). -/
  | copyStart
  /-- COPY_COMPLETE (R121). -/
  | copyComplete
  /-- LINE_START (R105). -/
  | lineStart
  /-- BUILD_COMPLETE (R139). -/
  | buildComplete
  /-- SPAN_WORD_ACCEPTED (R143). -/
  | spanWordAccepted
  /-- POINT_BYTE_WRITE (R150): a byte write at the Lookup Port. -/
  | pointByteWrite (b : Byte)
  /-- LK_SEL_FALL (R150): LK_SEL falls, or, with `level` high, rises (R149; log 16). -/
  | lkSelFall (level : PinLevel := .low)
  /-- LOOKUP_ANSWER_READ (R161): a byte read at the Lookup Port. -/
  | lookupAnswerRead
  /-- LOOKUP_TAKE (R153). -/
  | lookupTake
  /-- LOOKUP_COMPLETE (R154). -/
  | lookupComplete
  deriving DecidableEq, Repr

end Sys2Proof
end

