-- ==== Sys2Proof/WellFormed.lean ====
section
/-! DEFINITION. Which commands are well formed, and which agent sends each. -/

namespace Sys2Proof

/-- A command is well formed when it is an event of its row: an ASSEMBLY_ABANDON is "a STATUS write with the abandon
bit at 1" (R168), bit 15 (R185). Every other row takes any operand. -/
def Instr.wellFormed : Instr → Bool
  | .assemblyAbandon w => w.getLsbD 15
  | _ => true

/-- The agents that take the events (INVENTORY.md, "Agents"). -/
inductive Agent where
  | resetInput | host | requestEngine | leaseMonitor | timingInput | snapshotUnit | spanPath | touchController | lookupEngine
  deriving DecidableEq, Repr

/-- The agent whose event a command is. -/
def Instr.agent : Instr → Agent
  | .deviceReset _ => .resetInput
  | .requestWordWrite _ | .answerRead | .answerWindowWrite _ | .statusRead | .eventFlagClear _ | .assemblyAbandon _
  | .enableWrite _ => .host
  | .malformedMessage | .create | .edit | .retire | .restack | .discard | .publish | .renew | .queryRegion
  | .queryClient _ | .resume _ | .openClient _ | .closeClient _ | .clearAll _ | .setPanel | .heldAnswerPlacement
  | .lapseNotice | .copyEndApplication => .requestEngine
  | .reloadClaim | .leaseLoad | .leaseStop | .leaseFrameStart | .leaseExpiry => .leaseMonitor
  | .frameStart | .lineStart => .timingInput
  | .snapshotFrameStart | .copyStart | .copyComplete => .snapshotUnit
  | .buildComplete | .spanWordAccepted => .spanPath
  | .pointByteWrite _ | .lkSelFall _ | .lookupAnswerRead => .touchController
  | .lookupTake | .lookupComplete => .lookupEngine

end Sys2Proof
end

