-- ==== Sys2Proof/Machine/State.lean ====
section
/-! DEFINITION. The state of the part as plain data: every table, list, queue, counter, flag and mode the spec names,
with the rule that names it. INVENTORY.md, "State", lists the same fields with their reset values. -/

namespace Sys2Proof.Machine

/-! ### Region records (01) -/

/-- The three bands of the stacking order, which are also the three classes of a client (R1, R22). -/
inductive Band where
  | guarded | elevated | ordinary
  deriving DecidableEq, Repr

/-- The two opacities of a region: OPAQUE (`solid`) and KEYED (R5). -/
inductive Opacity where
  | solid | keyed
  deriving DecidableEq, Repr

/-- The touch field of a region (R5). -/
inductive Touch where
  | absorbs | accepts
  deriving DecidableEq, Repr

/-- The GEOMETRY group (R3). -/
structure Geometry where
  x : Nat
  y : Nat
  width : Nat
  height : Nat
  deriving DecidableEq, Repr

/-- The SOURCE group (R4). -/
structure Source where
  plane : Nat
  wrapWidth : Nat
  wrapHeight : Nat
  originColumn : Nat
  originRow : Nat
  deriving DecidableEq, Repr

/-- The APPEARANCE group (R5); `visible` is YES when true. -/
structure Appearance where
  opacity : Opacity
  visible : Bool
  touch : Touch
  deriving DecidableEq, Repr

/-- A part of a region record: its three field groups (R1). -/
structure Part where
  geometry : Geometry
  source : Source
  appearance : Appearance
  deriving DecidableEq, Repr

/-- The staged part of a LIVE region: the groups and the retire mark (R1, R10). -/
structure StagedPart where
  part : Part
  retire : Bool
  deriving DecidableEq, Repr

/-- What a RESERVED record holds (R2): always a staged part, whose retire mark is NO (R7, R10, R11), and a creation
order. -/
structure ReservedRegion where
  owner : ClientId
  band : Band
  staged : Part
  order : Nat
  deriving DecidableEq, Repr

/-- What a LIVE record holds (R2): always a committed part and a changed frame, a staged part while its owner has
unpublished edits of it. -/
structure LiveRegion where
  owner : ClientId
  band : Band
  committed : Part
  staged : Option StagedPart
  changed : Frame
  deriving DecidableEq, Repr

/-- A region record (R1). The fields present in each state are those R2 gives, and no others; the id is the record's
position. -/
inductive Region where
  | free
  | reserved (r : ReservedRegion)
  | live (r : LiveRegion)
  deriving DecidableEq, Repr

/-! ### Client records (02, 03) -/

/-- The five client states (R21, R27). -/
inductive ClientState where
  | closed | active | publishing | lapsed | closing
  deriving DecidableEq, Repr

/-- The fields OPEN_CLIENT sets, absent in CLOSED (R21). -/
structure Terms where
  cls : Band
  quota : Nat
  period : Nat
  deriving DecidableEq, Repr

/-- The kind of a move, with its reference for ABOVE and BELOW (R44). -/
inductive Placement where
  | top
  | bottom
  | above (reference : RegionId)
  | below (reference : RegionId)
  deriving DecidableEq, Repr

/-- A staged move (R44). -/
structure Move where
  subject : RegionId
  placement : Placement
  dead : Bool
  deriving DecidableEq, Repr

/-- A client record (R21). -/
structure Client where
  state : ClientState
  terms : Option Terms
  owned : Nat
  moves : List Move
  parkedEntry : Bool
  deriving DecidableEq, Repr

/-- The record of a CLOSED client (R21, R38). -/
def closedClient : Client :=
  { state := .closed, terms := none, owned := 0, moves := [], parkedEntry := false }

/-- Client 0's record after device reset (R26, R38). -/
def supervisorClient : Client :=
  { state := .active, terms := some { cls := .guarded, quota := 64, period := 0 }, owned := 0, moves := [],
    parkedEntry := false }

/-- The three band lists, each from top to bottom (R39). -/
structure Bands where
  guarded : List RegionId
  elevated : List RegionId
  ordinary : List RegionId
  deriving DecidableEq, Repr

/-- An entry of the Parked List (R85). -/
inductive ParkedEntry where
  | publish (client : ClientId) (tag : Tag)
  | close (target : ClientId) (tag : Tag)
  | clearAll (tag : Tag)
  deriving DecidableEq, Repr

/-- A panel size: the panel configuration (R107), or the size a scan list latched (R110). 0 x 0 is unconfigured. -/
structure Panel where
  width : Nat
  height : Nat
  deriving DecidableEq, Repr

/-! ### Answers (11) -/

/-- The answer codes ("answer codes", 11). -/
inductive AnswerCode where
  | ok | malformed | noClient | lapsed | held | notPermitted | badField | badRegion | retiring | bandMismatch | moveFull
  | quota | noRegion | guardLimit | noPanel | guardOverlap | wrongState | panelInUse | cancelled
  deriving DecidableEq, Repr

/-- The detail field of an answer: the failing group of a BAD_FIELD or the cause of a CANCELLED (R181). -/
inductive Detail where
  | none | geometry | source | appearance | lapse | close
  deriving DecidableEq, Repr

/-- What a QUERY_REGION answer reports (R19, R182). `stagedShown` is whether the staged part is given to the asker. -/
structure RegionReport where
  id : RegionId
  region : Region
  position : Nat
  stagedShown : Bool
  deriving DecidableEq, Repr

/-- What a QUERY_CLIENT answer reports (R36, R182). -/
structure ClientReport where
  target : ClientId
  state : ClientState
  terms : Option Terms
  owned : Nat
  leaseRemaining : Nat
  moveCount : Nat
  parkedEntry : Bool
  deriving DecidableEq, Repr

/-- The fields that an answer's kind and code call for (R182). -/
inductive AnswerFields where
  | none
  | region (id : RegionId)
  | moveCount (n : Nat)
  | publish (effective : Option Frame) (applied skipped : Nat)
  | overlap (first second : RegionId)
  | effective (frame : Frame)
  | regionReport (r : RegionReport)
  | clientReport (r : ClientReport)
  deriving DecidableEq, Repr

/-- The client and tag of a request, echoed in its answer (R181). -/
structure Header where
  client : ClientId
  tag : Tag
  deriving DecidableEq, Repr

/-- The part of an answer that the kind's own rules give. -/
structure Reply where
  code : AnswerCode
  detail : Detail
  fields : AnswerFields
  deriving DecidableEq, Repr

/-- An answer (R81, R181): the request's kind field as received, its client and tag (absent for a one-word message,
R79), and the reply. -/
structure Answer where
  kind : Byte
  header : Option Header
  reply : Reply
  deriving DecidableEq, Repr

/-! ### The Request Engine (05) -/

/-- What is left of a piece of work after its latest answer (R76, R82, R32). -/
inductive Resume where
  /-- Nothing: the answer ends the piece. -/
  | finish
  /-- Steps 3 to 5 of R31 for a CLOSE_CLIENT whose CANCELLED answer was held (R32); `parks` is the judgment of R83 made
  when the close was taken. -/
  | closeTail (target : ClientId) (tag : Tag) (parks : Bool)
  /-- The later entries of the copy-end application in hand (R82, R87). -/
  | application
  deriving DecidableEq, Repr

/-- The engine's state (R76). Within a command that takes a piece it is WORKING with nothing left over; between commands
it is WORKING only on the rest of a piece: a close whose CANCELLED answer was held, or the later entries of a copy-end
application (log 8). -/
inductive Engine where
  | free
  | working (rest : Resume)
  | stalled (held : Answer) (rest : Resume)
  deriving DecidableEq, Repr

/-! ### The Lease Monitor (06) -/

/-- A lease counter (R92). -/
structure LeaseCounter where
  count : Nat
  running : Bool
  deriving DecidableEq, Repr

/-- What the engine hands to the Lease Monitor: a reload claim (R95), a load with the period (R93), a stop (R96). -/
inductive LeaseMsg where
  | claim (client : ClientId)
  | load (client : ClientId) (period : Nat)
  | stop (client : ClientId)
  deriving DecidableEq, Repr

/-! ### Snapshot Unit and scan lists (07) -/

/-- What the Snapshot Unit latches for a copy: the visible-client set and the panel size (R119). -/
structure Latch where
  visible : List ClientId
  panel : Panel
  deriving DecidableEq, Repr

/-- The Snapshot Unit's state (R114); a latch exists while it copies. -/
inductive SnapState where
  | idle
  | waiting
  | copying (latch : Latch)
  | ready
  deriving DecidableEq, Repr

/-- An entry of a scan list (R111). -/
structure Entry where
  id : RegionId
  owner : ClientId
  band : Band
  geometry : Geometry
  source : Source
  opacity : Opacity
  touch : Touch
  deriving DecidableEq, Repr

/-- A scan list (R110); its role is given by `State.showing`, its entry count by the length of `entries`. -/
structure ScanList where
  tag : Frame
  panel : Panel
  entries : List Entry
  pinCount : Nat
  deriving DecidableEq, Repr

/-- A scan list after device reset (R126). -/
def emptyScanList : ScanList :=
  { tag := 0, panel := { width := 0, height := 0 }, entries := [], pinCount := 0 }

/-- The names of the two scan lists (R110). -/
inductive ListName where
  | a | b
  deriving DecidableEq, Repr

/-! ### The span path (08) -/

/-- The Span Builder (R127): IDLE, or BUILDING a line of a scan list. -/
inductive Builder where
  | idle
  | building (line : Nat) (list : ListName)
  deriving DecidableEq, Repr

/-- The source a REGION underlay shows (R134). -/
structure UnderlaySource where
  id : RegionId
  plane : Nat
  startColumn : Nat
  row : Nat
  wrapWidth : Nat
  deriving DecidableEq, Repr

/-- The fields of a REGION span (R133). `underlay` is absent for an OPAQUE owner; `some none` is an underlay of kind
BACKGROUND (R134). -/
structure RegionSpan where
  id : RegionId
  owner : ClientId
  plane : Nat
  startColumn : Nat
  row : Nat
  wrapWidth : Nat
  underlay : Option (Option UnderlaySource)
  deriving DecidableEq, Repr

/-- A span (R133): a REGION span, or a BACKGROUND span when `content` is absent. -/
structure Span where
  startX : Nat
  length : Nat
  content : Option RegionSpan
  deriving DecidableEq, Repr

/-- A finished line (R139); its span count is the length of `spans`. -/
structure Line where
  number : Nat
  tag : Frame
  overflow : Bool
  spans : List Span
  deriving DecidableEq, Repr

/-- The items sent at the Span Output Port (R144, R145, R183). -/
inductive SpanItem where
  | lineHead (number : Nat) (tag : Frame) (spanCount : Nat) (overflow : Bool)
  | span (s : Span)
  | underlay (u : Option UnderlaySource)
  | lineAbort (number : Nat) (tag : Frame)
  deriving DecidableEq, Repr

/-- The port's place in what it is sending: the item in hand, how many of its words have been accepted, and the items
after it. -/
structure SpanPlace where
  item : SpanItem
  sent : Nat
  later : List SpanItem
  deriving DecidableEq, Repr

/-- The Span Output Port's state (R143). -/
inductive SpanPort where
  | idle
  | sending (place : SpanPlace)
  | aborting (place : SpanPlace)
  deriving DecidableEq, Repr

/-! ### The lookup path (09) -/

/-- A complete point with its capture stamp (R150, R151, R152). -/
structure Point where
  touchId : Nat
  x : Nat
  y : Nat
  captureFrame : Frame
  captureLine : Nat
  deriving DecidableEq, Repr

/-- The Lookup Engine (R153): IDLE, or LOOKING with the point in hand and the list it pinned. -/
inductive LookupEngine where
  | idle
  | looking (point : Point) (list : ListName)
  deriving DecidableEq, Repr

/-- The fields of a HIT (R158). -/
structure Hit where
  id : RegionId
  owner : ClientId
  localX : Nat
  localY : Nat
  plane : Nat
  sourceColumn : Nat
  sourceRow : Nat
  deriving DecidableEq, Repr

/-- The four results of a lookup (R155 to R158). -/
inductive LookupResult where
  | outside
  | background
  | absorbed (id : RegionId) (owner : ClientId)
  | hit (h : Hit)
  deriving DecidableEq, Repr

/-- A lookup answer (R159). -/
structure LookupAnswer where
  touchId : Nat
  result : LookupResult
  captureFrame : Frame
  captureLine : Nat
  listTag : Frame
  deriving DecidableEq, Repr

/-! ### The Request Port (10) -/

/-- The message being assembled: its words so far and the length its first word announced (R165, R166). It is empty
when it has no words. -/
structure Assembly where
  words : List Word
  length : Nat
  deriving DecidableEq, Repr

/-- The six event flags, true when SET (R174); also the six enables of the same positions (R176). -/
structure EventFlags where
  snapshotLate : Bool
  lineDropped : Bool
  spanOverflow : Bool
  leaseLapse : Bool
  requestOverrun : Bool
  lookupOverrun : Bool
  deriving DecidableEq, Repr

/-- All six flags CLEAR, or all six enables DISABLED. -/
def noFlags : EventFlags :=
  { snapshotLate := false, lineDropped := false, spanOverflow := false, leaseLapse := false, requestOverrun := false,
    lookupOverrun := false }

/-- The enable mask, true when ENABLED (R176). -/
structure EnableMask where
  flags : EventFlags
  answerAvailable : Bool
  lookupAvailable : Bool
  deriving DecidableEq, Repr

/-- The snapshot of every status field taken by the read of the first status word (R172, R173). -/
structure StatusSnapshot where
  flags : EventFlags
  answerAvailable : Bool
  lookupAvailable : Bool
  assemblyInProgress : Bool
  lastReadEmpty : Bool
  queueRoom : Nat
  answersWaiting : Nat
  wordsRemaining : Nat
  deriving DecidableEq, Repr

/-! ### The whole state -/

/-- The state of the FN-6416, and the queue of commands waiting for it. -/
structure State where
  /-- Whether RESET is low (R106, R147, R163, R178; log 10). -/
  resetLow : Bool
  /-- The Region Table (R1). -/
  regions : Vector Region 64
  /-- The Client Table (R21). -/
  clients : Vector Client 16
  /-- The band lists (R39). -/
  bands : Bands
  /-- The Parked List (R85). -/
  parked : List ParkedEntry
  /-- The panel configuration (R107). -/
  panel : Panel
  /-- The engine's state, with the answer it holds when STALLED (R76, R82). -/
  engine : Engine
  /-- The committed-work indication, true when raised (R83). -/
  committedWork : Bool
  /-- The copy-end indication, raised while a copy-end application is due (R86). -/
  copyEndDue : Bool
  /-- The lease counters (R92). -/
  counters : Vector LeaseCounter 16
  /-- The Lapse Pending Set, in ascending client number (R97). -/
  lapsePending : List ClientId
  /-- Lease messages handed over by the engine and not yet taken, oldest first: between two commands of a run, reload claims
  (R80, R103; log 5). -/
  leaseInbox : List LeaseMsg
  /-- The frame counter of the Timing Input (R104). -/
  frameCounter : Frame
  /-- The line counter of the Timing Input (R105). -/
  lineCounter : Nat
  /-- The Snapshot Unit's state (R114). -/
  snapState : SnapState
  /-- The Snapshot Unit's frame number F (R114). -/
  snapFrame : Frame
  /-- Scan list A (R110). -/
  listA : ScanList
  /-- Scan list B (R110). -/
  listB : ScanList
  /-- The list in the SHOWING role; the other is FILLING (R112). -/
  showing : ListName
  /-- The Span Builder (R127). -/
  builder : Builder
  /-- The Span Queue, older line first (R141). -/
  spanQueue : List Line
  /-- The Span Output Port (R143). -/
  spanPort : SpanPort
  /-- The Lookup Port's assembly (R149). -/
  pointBytes : List Byte
  /-- The Point Queue, oldest first (R152). -/
  points : List Point
  /-- The Lookup Engine (R153). -/
  lookup : LookupEngine
  /-- The Lookup Answer Queue, oldest first (R161). -/
  lookupAnswers : List LookupAnswer
  /-- The read position in the head lookup answer (R161). -/
  lookupRead : Nat
  /-- The LK_SEL pin, true when high (R149; log 16). -/
  lkSel : Bool
  /-- The byte taken by the latest byte read (R161, R162; log 16). -/
  lkByte : Option Byte
  /-- The message being assembled (R165). -/
  assembly : Assembly
  /-- The Request Queue, oldest message first (R169). -/
  requests : List (List Word)
  /-- The Answer Queue, oldest first (R82). -/
  answers : List Answer
  /-- The words of the head answer already read (R170). -/
  answerRead : Nat
  /-- The status read position: `none` is 0; `some` is 1, with the snapshot of the pair (R172). -/
  statusHeld : Option StatusSnapshot
  /-- The last-read-empty indication, true for YES (R171). -/
  lastReadEmpty : Bool
  /-- The event flags (R174). -/
  flags : EventFlags
  /-- The enable mask (R176). -/
  enables : EnableMask
  /-- The word the port drives on RQ_D since the latest edge of RQ_CLK, if that edge took a read (R164). -/
  rqData : Option Word
  /-- The commands waiting to be taken, first in, first out: the model's own field (log 4). -/
  pending : List Instr
  deriving DecidableEq, Repr

/-- No command faults: the spec gives the part no trap and no fatal error (INVENTORY.md, "Faults"), so this type has no
constructor. Safe: no run of the model stops where the part goes on. -/
inductive Fault where
  deriving DecidableEq, Repr

/-- Why a command is refused. -/
inductive Refusal where
  /-- Raised by `exec` alone, for a command whose meaning has not been written; safe. Every command of this model has
  its meaning, so nothing raises it. -/
  | notModelled (mnemonic : String)
  deriving DecidableEq, Repr

/-- The part right after device reset, RESET being high again (R20, R38, R52, R91, R103, R106, R107, R126, R148, R163, R178;
log 16 for `lkSel` and `lkByte`), with no command waiting. -/
def State.reset : State where
  resetLow := false
  regions := Vector.replicate 64 .free
  clients := Vector.ofFn fun k => if k = Config.supervisor then supervisorClient else closedClient
  bands := { guarded := [], elevated := [], ordinary := [] }
  parked := []
  panel := { width := 0, height := 0 }
  engine := .free
  committedWork := false
  copyEndDue := false
  counters := Vector.replicate 16 { count := 0, running := false }
  lapsePending := []
  leaseInbox := []
  frameCounter := 0
  lineCounter := 0
  snapState := .idle
  snapFrame := 0
  listA := emptyScanList
  listB := emptyScanList
  showing := .a
  builder := .idle
  spanQueue := []
  spanPort := .idle
  pointBytes := []
  points := []
  lookup := .idle
  lookupAnswers := []
  lookupRead := 0
  lkSel := false
  lkByte := none
  assembly := { words := [], length := 0 }
  requests := []
  answers := []
  answerRead := 0
  statusHeld := none
  lastReadEmpty := false
  flags := noFlags
  enables := { flags := noFlags, answerAvailable := false, lookupAvailable := false }
  rqData := none
  pending := []

end Sys2Proof.Machine
end

