-- ==== Sys2Proof/Machine/Operands.lean ====
section
/-! DEFINITION. The operands of the commands: the layout of request messages (R165, R179, R180) and the validation of
field groups (R3 to R6). Words of a message are counted from 1, as R179 counts them. -/

namespace Sys2Proof.Machine

/-! ### Bit fields -/

/-- The unsigned number in bits `lo + width - 1 : lo` of a word (11, opening). -/
def wordField (w : Word) (lo width : Nat) : Nat :=
  w.toNat / 2 ^ lo % 2 ^ width

/-- Word `n` of a message, counted from 1; 0 where the message has no such word. -/
def messageWord (m : List Word) (n : Nat) : Word :=
  m.getD (n - 1) 0

/-- A full-word numeric field: word `n` as an unsigned number (R180). -/
def messageNumber (m : List Word) (n : Nat) : Nat :=
  (messageWord m n).toNat

/-- The length in words that the Request Port takes from a first word (R165). -/
def announcedLength (w : Word) : Nat :=
  let n := wordField w 0 5
  if n = 0 then 1 else if n ≤ Config.longestMessage then n else Config.longestMessage

/-- The kind field of a message: bits 15:8 of word 1 (R179). -/
def messageKindField (m : List Word) : Byte :=
  (messageWord m 1).extractLsb' 8 8

/-- The client and tag of a message: bits 15:12 and 7:0 of word 2 (R179). -/
def messageHeader (m : List Word) : Header :=
  { client := Fin.ofNat 16 (wordField (messageWord m 2) 12 4), tag := (messageWord m 2).extractLsb' 0 8 }

/-! ### Request kinds -/

/-- The 14 request kinds (R179). -/
inductive RequestKind where
  | create | edit | retire | restack | discard | publish | renew | queryRegion | queryClient | resume | openClient
  | closeClient | clearAll | setPanel
  deriving DecidableEq, Repr

/-- The kind numbers (R179). -/
def requestKindNumber : RequestKind → Nat
  | .create => 1
  | .edit => 2
  | .retire => 3
  | .restack => 4
  | .discard => 5
  | .publish => 6
  | .renew => 7
  | .queryRegion => 8
  | .queryClient => 9
  | .resume => 10
  | .openClient => 11
  | .closeClient => 12
  | .clearAll => 13
  | .setPanel => 14

/-- The kind with a given number; 0 and 15 to 255 are unknown (R179). -/
def requestKindOf : Nat → Option RequestKind
  | 1 => some .create
  | 2 => some .edit
  | 3 => some .retire
  | 4 => some .restack
  | 5 => some .discard
  | 6 => some .publish
  | 7 => some .renew
  | 8 => some .queryRegion
  | 9 => some .queryClient
  | 10 => some .resume
  | 11 => some .openClient
  | 12 => some .closeClient
  | 13 => some .clearAll
  | 14 => some .setPanel
  | _ => none

/-- The staging kinds (R27, R53). -/
def stagingKind : RequestKind → Bool
  | .create | .edit | .retire | .restack | .publish | .discard => true
  | _ => false

/-- The supervisor kinds (R26). -/
def supervisorKind : RequestKind → Bool
  | .openClient | .closeClient | .clearAll | .setPanel => true
  | _ => false

/-- The two queries, which are never HELD (R19, R36, R78). -/
def queryKind : RequestKind → Bool
  | .queryRegion | .queryClient => true
  | _ => false

/-- The groups an EDIT's mask names: bits 8, 9 and 10 of word 3 (R180). -/
structure EditMask where
  geometry : Bool
  source : Bool
  appearance : Bool
  deriving DecidableEq, Repr

/-- The mask of an EDIT message. -/
def editMask (m : List Word) : EditMask :=
  { geometry := (messageWord m 3).getLsbD 8, source := (messageWord m 3).getLsbD 9,
    appearance := (messageWord m 3).getLsbD 10 }

/-- Whether a mask names no group. -/
def EditMask.isEmpty (k : EditMask) : Bool :=
  !(k.geometry || k.source || k.appearance)

/-- The length in words of a message of each kind; an EDIT's follows its mask (R179). -/
def kindLength (k : RequestKind) (m : List Word) : Nat :=
  match k with
  | .create => 12
  | .edit =>
    3 + (if (editMask m).geometry then 4 else 0) + (if (editMask m).source then 5 else 0)
      + (if (editMask m).appearance then 1 else 0)
  | .retire | .queryRegion | .queryClient | .closeClient => 3
  | .restack | .setPanel => 4
  | .openClient => 5
  | .discard | .publish | .renew | .resume | .clearAll => 2

/-- Check 1 of R78: the kind of a message, or nothing when the message is malformed: it has one word, its kind is
unknown, its length is not the length of its kind, or it is an EDIT whose mask is empty (R56, R78, R179). -/
def messageKind (m : List Word) : Option RequestKind :=
  if m.length ≤ 1 then none
  else
    match requestKindOf (messageKindField m).toNat with
    | none => none
    | some k =>
      if k = .edit ∧ (editMask m).isEmpty then none
      else if m.length = kindLength k m then some k else none

/-! ### Fields of a message -/

/-- A region number, when it is one of 0 to 63 (R180). -/
def regionNumber (n : Nat) : Option RegionId :=
  if h : n < 64 then some ⟨n, h⟩ else none

/-- A client number, when it is one of 0 to 15 (R180). -/
def clientNumber (n : Nat) : Option ClientId :=
  if h : n < 16 then some ⟨n, h⟩ else none

/-- The region or client number in bits 7:0 of word `n` (R180). -/
def lowNumber (m : List Word) (n : Nat) : Nat :=
  wordField (messageWord m n) 0 8

/-- The enumerated field in bits 10:8 of word `n` (R180). -/
def enumField (m : List Word) (n : Nat) : Nat :=
  wordField (messageWord m n) 8 3

/-- The GEOMETRY group carried from word `n` (R180). -/
def geometryAt (m : List Word) (n : Nat) : Geometry :=
  { x := messageNumber m n, y := messageNumber m (n + 1), width := messageNumber m (n + 2),
    height := messageNumber m (n + 3) }

/-- The SOURCE group carried from word `n` (R180). -/
def sourceAt (m : List Word) (n : Nat) : Source :=
  { plane := messageNumber m n, wrapWidth := messageNumber m (n + 1), wrapHeight := messageNumber m (n + 2),
    originColumn := messageNumber m (n + 3), originRow := messageNumber m (n + 4) }

/-- The APPEARANCE group carried in word `n` (R180). -/
def appearanceAt (m : List Word) (n : Nat) : Appearance :=
  { opacity := if (messageWord m n).getLsbD 8 then .keyed else .solid
    visible := (messageWord m n).getLsbD 9
    touch := if (messageWord m n).getLsbD 10 then .accepts else .absorbs }

/-- The field groups a CREATE or an EDIT carries. -/
structure Groups where
  geometry : Option Geometry
  source : Option Source
  appearance : Option Appearance
  deriving DecidableEq, Repr

/-- The three groups of a CREATE: words 3 to 6, 7 to 11 and 12 (R180). -/
def createPart (m : List Word) : Part :=
  { geometry := geometryAt m 3, source := sourceAt m 7, appearance := appearanceAt m 12 }

/-- The groups of a whole part. -/
def Groups.ofPart (p : Part) : Groups :=
  { geometry := some p.geometry, source := some p.source, appearance := some p.appearance }

/-- The masked groups of an EDIT, in consecutive words from word 4 (R180). -/
def editGroups (m : List Word) : Groups :=
  let k := editMask m
  let afterGeometry := 4 + (if k.geometry then 4 else 0)
  let afterSource := afterGeometry + (if k.source then 5 else 0)
  { geometry := if k.geometry then some (geometryAt m 4) else none
    source := if k.source then some (sourceAt m afterGeometry) else none
    appearance := if k.appearance then some (appearanceAt m afterSource) else none }

/-- The move kind of a RESTACK in bits 10:8 of word 3, with the reference of word 4 for ABOVE and BELOW; `none` when the
kind or the reference is out of range (R45 check 1, R180). -/
def restackPlacement (m : List Word) : Option Placement :=
  match enumField m 3 with
  | 0 => some .top
  | 1 => some .bottom
  | 2 => (regionNumber (lowNumber m 4)).map .above
  | 3 => (regionNumber (lowNumber m 4)).map .below
  | _ => none

/-- A class from its number (R180). -/
def classOf : Nat → Option Band
  | 0 => some .guarded
  | 1 => some .elevated
  | 2 => some .ordinary
  | _ => none

/-! ### Validation -/

/-- The conditions of R3 on a GEOMETRY group, against a panel. -/
def Geometry.valid (g : Geometry) (p : Panel) : Bool :=
  decide (g.x ≤ 2047 ∧ g.y ≤ 1535 ∧ 1 ≤ g.width ∧ g.width ≤ 2048 ∧ 1 ≤ g.height ∧ g.height ≤ 1536
    ∧ g.x + g.width ≤ p.width ∧ g.y + g.height ≤ p.height)

/-- The conditions of R4 on a SOURCE group. -/
def Source.valid (c : Source) : Bool :=
  decide (c.plane ≤ 7 ∧ 1 ≤ c.wrapWidth ∧ c.wrapWidth ≤ 4096 ∧ 1 ≤ c.wrapHeight ∧ c.wrapHeight ≤ 4096
    ∧ c.originColumn ≤ 4095 ∧ c.originRow ≤ 4095 ∧ c.originColumn < c.wrapWidth ∧ c.originRow < c.wrapHeight)

/-- The condition of R5 on an APPEARANCE group: a region of the GUARDED band is OPAQUE. -/
def Appearance.valid (a : Appearance) (b : Band) : Bool :=
  decide (b = .guarded → a.opacity = .solid)

/-- Validation of the groups a request carries, in the order GEOMETRY, SOURCE, APPEARANCE: the first that fails (R6). -/
def Groups.failing (g : Groups) (p : Panel) (b : Band) : Option Detail :=
  if g.geometry.any (fun x => !x.valid p) then some .geometry
  else if g.source.any (fun x => !x.valid) then some .source
  else if g.appearance.any (fun x => !x.valid b) then some .appearance
  else none

/-- Replacing the groups of a part by those carried; the others keep their values (R9, R57). -/
def Groups.applyTo (g : Groups) (p : Part) : Part :=
  { geometry := g.geometry.getD p.geometry
    source := g.source.getD p.source
    appearance := g.appearance.getD p.appearance }

/-- A panel size that SET_PANEL accepts: 0 x 0, or 16 to 2048 by 16 to 1536 (R107, R108 check 1). -/
def Panel.valid (p : Panel) : Bool :=
  decide ((p.width = 0 ∧ p.height = 0) ∨ (16 ≤ p.width ∧ p.width ≤ 2048 ∧ 16 ≤ p.height ∧ p.height ≤ 1536))

/-- Whether a panel is unconfigured, 0 x 0 (R107). -/
def Panel.unconfigured (p : Panel) : Bool :=
  decide (p.width = 0 ∧ p.height = 0)

end Sys2Proof.Machine
end

