-- ==== Sys2Proof/Machine/Flags.lean ====
section
/-! DEFINITION. Event flags, enables, the status pair, IRQ (R172 to R177, R185) and the formats of answers, span items
and lookup answers (R181 to R184). -/

namespace Sys2Proof.Machine

/-! ### Packing bits -/

/-- The bit `b` at position `n` of a word. -/
def bitAt (b : Bool) (n : Nat) : Nat :=
  if b then 2 ^ n else 0

/-- A field of `width` bits holding `v` with its least significant bit at position `lo`. -/
def fieldAt (v width lo : Nat) : Nat :=
  v % 2 ^ width * 2 ^ lo

/-! ### Event flags and enables -/

/-- Bits 5 to 0 of the first status word and of the ENABLE word (R185 tables). -/
def flagBits (f : EventFlags) : Nat :=
  bitAt f.snapshotLate 0 + bitAt f.lineDropped 1 + bitAt f.spanOverflow 2 + bitAt f.leaseLapse 3
    + bitAt f.requestOverrun 4 + bitAt f.lookupOverrun 5

/-- The six flag bits of a written word. -/
def flagsOfWord (w : Word) : EventFlags :=
  { snapshotLate := w.getLsbD 0, lineDropped := w.getLsbD 1, spanOverflow := w.getLsbD 2, leaseLapse := w.getLsbD 3,
    requestOverrun := w.getLsbD 4, lookupOverrun := w.getLsbD 5 }

/-- A STATUS write clears each flag whose bit is 1 and leaves the others (R174). -/
def clearFlags (f : EventFlags) (w : Word) : EventFlags :=
  { snapshotLate := f.snapshotLate && !w.getLsbD 0, lineDropped := f.lineDropped && !w.getLsbD 1
    spanOverflow := f.spanOverflow && !w.getLsbD 2, leaseLapse := f.leaseLapse && !w.getLsbD 3
    requestOverrun := f.requestOverrun && !w.getLsbD 4, lookupOverrun := f.lookupOverrun && !w.getLsbD 5 }

/-- The enable mask a write to ENABLE stores: bits 0 to 5, 8 and 9 (R176, R185). -/
def enableMaskOf (w : Word) : EnableMask :=
  { flags := flagsOfWord w, answerAvailable := w.getLsbD 8, lookupAvailable := w.getLsbD 9 }

/-- The ENABLE word that holds a mask (R185). -/
def enableWord (e : EnableMask) : Word :=
  BitVec.ofNat 16 (flagBits e.flags + bitAt e.answerAvailable 8 + bitAt e.lookupAvailable 9)

/-! ### Level conditions and IRQ -/

/-- ANSWER_AVAILABLE holds while the Answer Queue holds at least one answer (R175). -/
def answerAvailable (s : State) : Bool :=
  !s.answers.isEmpty

/-- LOOKUP_AVAILABLE holds while the Lookup Answer Queue holds at least one answer (R161, R175). -/
def lookupAvailable (s : State) : Bool :=
  !s.lookupAnswers.isEmpty

/-- The IRQ output (R177), held low while RESET is low (R178). -/
def irq (s : State) : Bool :=
  !s.resetLow &&
    ((s.flags.snapshotLate && s.enables.flags.snapshotLate) || (s.flags.lineDropped && s.enables.flags.lineDropped)
      || (s.flags.spanOverflow && s.enables.flags.spanOverflow) || (s.flags.leaseLapse && s.enables.flags.leaseLapse)
      || (s.flags.requestOverrun && s.enables.flags.requestOverrun)
      || (s.flags.lookupOverrun && s.enables.flags.lookupOverrun)
      || (answerAvailable s && s.enables.answerAvailable) || (lookupAvailable s && s.enables.lookupAvailable))

/-! ### Answers as words -/

/-- The numbers of the answer codes ("answer codes", 11). -/
def answerCodeNumber : AnswerCode → Nat
  | .ok => 0
  | .malformed => 1
  | .noClient => 2
  | .lapsed => 3
  | .held => 4
  | .notPermitted => 5
  | .badField => 6
  | .badRegion => 7
  | .retiring => 8
  | .bandMismatch => 9
  | .moveFull => 10
  | .quota => 11
  | .noRegion => 12
  | .guardLimit => 13
  | .noPanel => 14
  | .guardOverlap => 15
  | .wrongState => 16
  | .panelInUse => 17
  | .cancelled => 18

/-- The detail numbers (R181). -/
def detailNumber : Detail → Nat
  | .none => 0
  | .geometry => 1
  | .source => 2
  | .appearance => 3
  | .lapse => 1
  | .close => 2

/-- The numbers of bands and classes (R180, R182). -/
def bandNumber : Band → Nat
  | .guarded => 0
  | .elevated => 1
  | .ordinary => 2

/-- The numbers of client states in a QUERY_CLIENT answer (R182). -/
def clientStateNumber : ClientState → Nat
  | .closed => 0
  | .active => 1
  | .publishing => 2
  | .lapsed => 3
  | .closing => 4

/-- The 9 words of a region part in a QUERY_REGION answer (R182). -/
def partWords (p : Part) (retire : Bool) : List Word :=
  [BitVec.ofNat 16 p.geometry.x, BitVec.ofNat 16 p.geometry.y, BitVec.ofNat 16 p.geometry.width,
    BitVec.ofNat 16 p.geometry.height, BitVec.ofNat 16 p.source.wrapWidth, BitVec.ofNat 16 p.source.wrapHeight,
    BitVec.ofNat 16 p.source.originColumn, BitVec.ofNat 16 p.source.originRow,
    BitVec.ofNat 16 (fieldAt p.source.plane 3 0 + bitAt (p.appearance.opacity = .keyed) 8
      + bitAt p.appearance.visible 9 + bitAt (p.appearance.touch = .accepts) 10 + bitAt retire 15)]

/-- The words of an absent part: its fields read as 0 (R182). -/
def absentPartWords : List Word :=
  List.replicate 9 0

/-- Words 4 to 24 of a QUERY_REGION answer (R182). -/
def regionReportWords (r : RegionReport) : List Word :=
  let word5 := BitVec.ofNat 16 (fieldAt r.id.val 8 8 + fieldAt r.position 7 0)
  match r.region with
  | .free => [0, word5, 0] ++ absentPartWords ++ absentPartWords
  | .reserved g =>
    [BitVec.ofNat 16 (1 + fieldAt (bandNumber g.band) 2 4 + fieldAt g.owner.val 4 8 + bitAt r.stagedShown 14), word5, 0]
      ++ absentPartWords ++ (if r.stagedShown then partWords g.staged false else absentPartWords)
  | .live g =>
    [BitVec.ofNat 16 (2 + fieldAt (bandNumber g.band) 2 4 + fieldAt g.owner.val 4 8 + bitAt true 12 + bitAt true 13
        + bitAt (r.stagedShown && g.staged.isSome) 14), word5, g.changed]
      ++ partWords g.committed false
      ++ (match g.staged, r.stagedShown with
          | some st, true => partWords st.part st.retire
          | _, _ => absentPartWords)

/-- Words 4 to 7 of a QUERY_CLIENT answer (R182). -/
def clientReportWords (r : ClientReport) : List Word :=
  let cls := match r.terms with | some t => bandNumber t.cls | none => 0
  let quota := match r.terms with | some t => t.quota | none => 0
  let period := match r.terms with | some t => t.period | none => 0
  [BitVec.ofNat 16 (fieldAt r.target.val 4 12 + fieldAt (clientStateNumber r.state) 3 8 + fieldAt cls 3 4
      + bitAt r.terms.isSome 3 + bitAt r.parkedEntry 0),
    BitVec.ofNat 16 (fieldAt r.owned 7 8 + fieldAt quota 7 0),
    BitVec.ofNat 16 (fieldAt period 10 0),
    BitVec.ofNat 16 (fieldAt r.moveCount 4 12 + fieldAt r.leaseRemaining 10 0)]

/-- The words of an answer from word 4 on (R182). -/
def fieldWords : AnswerFields → List Word
  | .none => []
  | .region i => [BitVec.ofNat 16 i.val]
  | .moveCount n => [BitVec.ofNat 16 (fieldAt n 4 0)]
  | .publish eff applied skipped =>
    [BitVec.ofNat 16 (bitAt eff.isSome 15 + fieldAt applied 4 8 + fieldAt skipped 4 0), eff.getD 0]
  | .overlap a b => [BitVec.ofNat 16 (fieldAt a.val 8 8 + fieldAt b.val 8 0)]
  | .effective f => [f]
  | .regionReport r => regionReportWords r
  | .clientReport r => clientReportWords r

/-- Word 3 of an answer, when it has one (R181). -/
def headerWords : Option Header → List Word
  | none => []
  | some h => [BitVec.ofNat 16 (fieldAt h.client.val 4 12 + h.tag.toNat)]

/-- An answer's length in words: words 1 and 2, word 3 when the message had a client and tag, and the fields (R181,
R182). -/
def answerLength (a : Answer) : Nat :=
  2 + (headerWords a.header).length + (fieldWords a.reply.fields).length

/-- The words of an answer, in the order the host reads them (R181, R182). -/
def answerWords (a : Answer) : List Word :=
  [BitVec.ofNat 16 (a.kind.toNat * 2 ^ 8 + fieldAt (answerLength a) 5 0),
    BitVec.ofNat 16 (bitAt a.header.isSome 15 + fieldAt (detailNumber a.reply.detail) 3 8
      + fieldAt (answerCodeNumber a.reply.code) 8 0)]
    ++ headerWords a.header ++ fieldWords a.reply.fields

/-! ### The status pair -/

/-- Every status field at the moment of the read (R173). -/
def statusSnapshot (s : State) : StatusSnapshot :=
  { flags := s.flags
    answerAvailable := answerAvailable s
    lookupAvailable := lookupAvailable s
    assemblyInProgress := !s.assembly.words.isEmpty
    lastReadEmpty := s.lastReadEmpty
    queueRoom := Config.requestQueueSize - s.requests.length
    answersWaiting := s.answers.length
    wordsRemaining := match s.answers with | [] => 0 | a :: _ => answerLength a - s.answerRead }

/-- The first word of the pair (R185 tables). -/
def statusFirstWord (t : StatusSnapshot) : Word :=
  BitVec.ofNat 16 (flagBits t.flags + bitAt t.answerAvailable 8 + bitAt t.lookupAvailable 9
    + bitAt t.assemblyInProgress 12 + bitAt t.lastReadEmpty 13)

/-- The second word of the pair (R185 tables). -/
def statusSecondWord (t : StatusSnapshot) : Word :=
  BitVec.ofNat 16 (fieldAt t.queueRoom 5 0 + fieldAt t.answersWaiting 5 5 + fieldAt t.wordsRemaining 5 10)

/-! ### Span items as words -/

/-- The words of an UNDERLAY's region fields: bits 21:0 of word 1, and word 2 (R183). -/
def underlayFields (u : UnderlaySource) : Nat × Nat :=
  (fieldAt u.id.val 6 16 + fieldAt u.plane 3 13 + fieldAt u.wrapWidth 13 0,
    fieldAt u.row 12 16 + fieldAt u.startColumn 12 0)

/-- The words of an item (R183). -/
def itemWords : SpanItem → List SpanWord
  | .lineHead n tag count overflow =>
    [BitVec.ofNat 32 (1 * 2 ^ 28 + bitAt overflow 27 + fieldAt count 6 16 + fieldAt n 12 0), BitVec.ofNat 32 tag.toNat]
  | .span sp =>
    match sp.content with
    | none => [BitVec.ofNat 32 (2 * 2 ^ 28 + fieldAt sp.length 12 12 + fieldAt sp.startX 11 0), 0, 0]
    | some r =>
      [BitVec.ofNat 32 (2 * 2 ^ 28 + bitAt true 27 + bitAt r.underlay.isSome 26 + fieldAt sp.length 12 12
          + fieldAt sp.startX 11 0),
        BitVec.ofNat 32 (fieldAt r.owner.val 4 24 + fieldAt r.id.val 6 16 + fieldAt r.plane 3 13
          + fieldAt r.wrapWidth 13 0),
        BitVec.ofNat 32 (fieldAt r.row 12 16 + fieldAt r.startColumn 12 0)]
  | .underlay none => [BitVec.ofNat 32 (3 * 2 ^ 28), 0]
  | .underlay (some u) =>
    [BitVec.ofNat 32 (3 * 2 ^ 28 + bitAt true 27 + (underlayFields u).1), BitVec.ofNat 32 (underlayFields u).2]
  | .lineAbort n tag => [BitVec.ofNat 32 (4 * 2 ^ 28 + fieldAt n 12 0), BitVec.ofNat 32 tag.toNat]

/-! ### Lookup answers as bytes -/

/-- A two-byte field, high byte first (R184). -/
def twoBytes (n : Nat) : List Byte :=
  [BitVec.ofNat 8 (n / 256), BitVec.ofNat 8 n]

/-- The numbers of the results (R184). -/
def resultNumber : LookupResult → Nat
  | .outside => 0
  | .background => 1
  | .absorbed _ _ => 2
  | .hit _ => 3

/-- Bytes 8 to 18 of a lookup answer (R184); the bytes of an absent field read as 0 (R159). -/
def resultBytes : LookupResult → List Byte
  | .outside | .background => List.replicate 11 0
  | .absorbed i k => [BitVec.ofNat 8 i.val, BitVec.ofNat 8 k.val] ++ List.replicate 9 0
  | .hit h =>
    [BitVec.ofNat 8 h.id.val, BitVec.ofNat 8 h.owner.val] ++ twoBytes h.localX ++ twoBytes h.localY
      ++ [BitVec.ofNat 8 h.plane] ++ twoBytes h.sourceColumn ++ twoBytes h.sourceRow

/-- The 18 bytes of a lookup answer (R159, R184). -/
def lookupAnswerBytes (a : LookupAnswer) : List Byte :=
  [BitVec.ofNat 8 (fieldAt a.touchId 4 0 + fieldAt (resultNumber a.result) 3 4)] ++ twoBytes a.captureFrame.toNat
    ++ twoBytes a.captureLine ++ twoBytes a.listTag.toNat ++ resultBytes a.result

end Sys2Proof.Machine
end

