-- ==== Sys2Proof/Machine/Ops.lean ====
section
/-! DEFINITION. The shared operations over the tables and lists: reading and updating records, freeing records (R14),
discarding staging (R60), the lease counters (R92 to R97), the scan lists (R112) and the Span Output Port's beginning of
a line (R143). -/

namespace Sys2Proof.Machine

/-! ### RESET -/

/-- An event that a block takes only while RESET is high: while it is low the Timing Input takes no FRAME_START and no
LINE_START (R106), the span path takes no line and offers no word (R147), the lookup path takes no byte and no point (R163),
the Request Port takes no transaction (R178), and every block stands at its reset values, with no work to take. -/
def whileHigh (f : State → State) (s : State) : Host.Outcome State Fault Refusal :=
  .next (if s.resetLow then s else f s)

/-! ### Records of the tables -/

/-- The record of region `i` (R1). -/
def State.region (s : State) (i : RegionId) : Region :=
  s.regions[i]

/-- The record of client `k` (R21). -/
def State.client (s : State) (k : ClientId) : Client :=
  s.clients[k]

/-- The lease counter of client `k` (R92). -/
def State.counter (s : State) (k : ClientId) : LeaseCounter :=
  s.counters[k]

/-- Replacing every region record by a function of its id and its contents. -/
def State.mapRegions (f : RegionId → Region → Region) (s : State) : State :=
  { s with regions := Vector.ofFn fun i => f i (s.region i) }

/-- Replacing every client record by a function of its number and its contents. -/
def State.mapClients (f : ClientId → Client → Client) (s : State) : State :=
  { s with clients := Vector.ofFn fun k => f k (s.client k) }

/-- Replacing every lease counter by a function of its client and its contents. -/
def State.mapCounters (f : ClientId → LeaseCounter → LeaseCounter) (s : State) : State :=
  { s with counters := Vector.ofFn fun k => f k (s.counter k) }

/-- Writing one region record. -/
def State.setRegion (i : RegionId) (r : Region) (s : State) : State :=
  s.mapRegions fun j old => if j = i then r else old

/-- Updating one client record. -/
def State.updClient (k : ClientId) (f : Client → Client) (s : State) : State :=
  s.mapClients fun j old => if j = k then f old else old

/-- Writing one lease counter. -/
def State.setCounter (k : ClientId) (c : LeaseCounter) (s : State) : State :=
  s.mapCounters fun j old => if j = k then c else old

/-! ### What a region record says -/

/-- The owner of a record, absent in FREE (R1). -/
def regionOwner : Region → Option ClientId
  | .free => none
  | .reserved g => some g.owner
  | .live g => some g.owner

/-- The band of a record, absent in FREE (R1). -/
def regionBand : Region → Option Band
  | .free => none
  | .reserved g => some g.band
  | .live g => some g.band

/-- Whether a record is LIVE. -/
def isLive : Region → Bool
  | .live _ => true
  | _ => false

/-- Whether a record is FREE. -/
def isFree : Region → Bool
  | .free => true
  | _ => false

/-- Whether a record is RESERVED with owner `k`. -/
def isReservedOf (k : ClientId) : Region → Bool
  | .reserved g => decide (g.owner = k)
  | _ => false

/-- Whether a record is LIVE with owner `k`. -/
def isLiveOf (k : ClientId) : Region → Bool
  | .live g => decide (g.owner = k)
  | _ => false

/-- Whether a record is LIVE with owner `k` and has a staged part. -/
def isStagedOf (k : ClientId) : Region → Bool
  | .live g => decide (g.owner = k) && g.staged.isSome
  | _ => false

/-- Whether a record is LIVE with owner `k` and carries the retire mark (R10). -/
def isRetiringOf (k : ClientId) : Region → Bool
  | .live g => decide (g.owner = k) && g.staged.any (·.retire)
  | _ => false

/-- The ids whose records satisfy a condition, in ascending order. -/
def State.idsWhere (p : Region → Bool) (s : State) : List RegionId :=
  (List.finRange 64).filter fun i => p (s.region i)

/-- The number of records of the GUARDED band that are RESERVED or LIVE (R25). -/
def guardedCount (s : State) : Nat :=
  (s.idsWhere fun r => decide (regionBand r = some .guarded)).length

/-- The number of records RESERVED or LIVE whose owner is `k` (R21, R24). -/
def ownedRecords (s : State) (k : ClientId) : Nat :=
  (s.idsWhere fun r => decide (regionOwner r = some k)).length

/-! ### Band lists -/

/-- The band list of a band (R39). -/
def Bands.get (b : Bands) : Band → List RegionId
  | .guarded => b.guarded
  | .elevated => b.elevated
  | .ordinary => b.ordinary

/-- Changing one band list. -/
def Bands.modify (b : Bands) (band : Band) (f : List RegionId → List RegionId) : Bands :=
  match band with
  | .guarded => { b with guarded := f b.guarded }
  | .elevated => { b with elevated := f b.elevated }
  | .ordinary => { b with ordinary := f b.ordinary }

/-- Removing ids from every band list; the rest keep their order (R43). -/
def Bands.without (b : Bands) (ids : List RegionId) : Bands :=
  { guarded := b.guarded.filter (fun i => decide (i ∉ ids))
    elevated := b.elevated.filter (fun i => decide (i ∉ ids))
    ordinary := b.ordinary.filter (fun i => decide (i ∉ ids)) }

/-! ### Freeing records -/

/-- The reference of a move, for ABOVE and BELOW (R44). -/
def placementReference : Placement → Option RegionId
  | .top | .bottom => none
  | .above r | .below r => some r

/-- Marking a move dead when its reference is among the records freed (R48). -/
def markDead (ids : List RegionId) (m : Move) : Move :=
  { m with dead := m.dead || (placementReference m.placement).any fun r => decide (r ∈ ids) }

/-- The creation orders that stay close up: each falls by the number of freed RESERVED records of the same owner with a
lower creation order (R8). -/
def closeUpOrder (s : State) (ids : List RegionId) : Region → Region
  | .reserved g =>
    .reserved { g with
      order := g.order - (ids.filter fun j =>
        match s.region j with
        | .reserved h => decide (h.owner = g.owner ∧ h.order < g.order)
        | _ => false).length }
  | r => r

/-- Records become FREE (R14): their fields are removed, they leave their band lists (R43), their owners' owned counts
fall by one for each (R24), creation orders close up (R8), and every move that names one of them as reference is marked
dead (R48). -/
def freeRecords (ids : List RegionId) (s : State) : State :=
  { s with
    regions := Vector.ofFn fun i => if i ∈ ids then .free else closeUpOrder s ids (s.region i)
    bands := s.bands.without ids
    clients := Vector.ofFn fun k =>
      { s.client k with
        owned := (s.client k).owned - (ids.filter fun i => decide (regionOwner (s.region i) = some k)).length
        moves := (s.client k).moves.map (markDead ids) } }

/-- Removing the staged part of a LIVE record of client `k` (R15). -/
def dropStaged (k : ClientId) : Region → Region
  | .live g => if g.owner = k then .live { g with staged := none } else .live g
  | r => r

/-- The whole of a client's staging is discarded (R60; also R31 step 1 and R98 step 3): its RESERVED records become FREE,
the staged parts of its LIVE records are removed, its move list is emptied. -/
def discardStaging (k : ClientId) (s : State) : State :=
  (((freeRecords (s.idsWhere (isReservedOf k)) s).mapRegions fun _ r => dropStaged k r).updClient k
    fun c => { c with moves := [] })

/-- Whether a client's staging is empty (R62). -/
def stagingEmpty (k : ClientId) (s : State) : Bool :=
  (s.idsWhere fun r => isReservedOf k r || isStagedOf k r).isEmpty && (s.client k).moves.isEmpty

/-! ### The Parked List -/

/-- Whether an entry is a PUBLISH of client `k`. -/
def isPublishOf (k : ClientId) : ParkedEntry → Bool
  | .publish j _ => decide (j = k)
  | _ => false

/-- The tag of the parked PUBLISH of client `k`, if there is one. -/
def parkedPublishTag (k : ClientId) (s : State) : Option Tag :=
  match s.parked.find? (isPublishOf k) with
  | some (.publish _ tag) => some tag
  | _ => none

/-- Removing the PUBLISH entry of client `k`: the entries behind it close up (R88), and the client's parked-entry flag
becomes NO (R35). -/
def removePublish (k : ClientId) (s : State) : State :=
  { s with parked := s.parked.filter fun e => !isPublishOf k e }.updClient k fun c => { c with parkedEntry := false }

/-- Whether a CLEAR_ALL entry is in the Parked List (R78). -/
def clearParked (s : State) : Bool :=
  s.parked.any fun e => match e with | .clearAll _ => true | _ => false

/-! ### The Lease Monitor -/

/-- The clients for which `p` holds, in ascending order. -/
def clientsWhere (p : ClientId → Bool) : List ClientId :=
  (List.finRange 16).filter p

/-- Whether a client's counter is RUNNING at 0, which it is only within the decrement that reached 0 (R92, R94). -/
def counterSpent (s : State) (k : ClientId) : Bool :=
  (s.counter k).running && decide ((s.counter k).count = 0)

/-- The counters that reached 0 stop, their clients join the Lapse Pending Set, and LEASE_LAPSE is set if there is one
(R94). -/
def expireCounters (s : State) : State :=
  { s with
    counters := Vector.ofFn fun k => if counterSpent s k then { count := 0, running := false } else s.counter k
    lapsePending := clientsWhere fun k => decide (k ∈ s.lapsePending) || counterSpent s k
    flags := { s.flags with leaseLapse := s.flags.leaseLapse || (List.finRange 16).any (counterSpent s) } }

/-- The Lease Monitor's work at a FRAME_START (R94): each RUNNING counter decreases by 1, a STOPPED counter does not change,
and those that reach 0 at this decrement stop, a counter of lease period 1 also when a claim has just reloaded it (R95;
DESIGN CHOICE against a sentence of R93, log 25). -/
def countDown (s : State) : State :=
  expireCounters (s.mapCounters fun _ c => if c.running then { c with count := c.count - 1 } else c)

/-- The lease period of a client; 0 when it has none (R21). -/
def leasePeriod (s : State) (k : ClientId) : Nat :=
  match (s.client k).terms with
  | some t => t.period
  | none => 0

/-- A reload claim: a RUNNING counter is set to the lease period, a STOPPED one is left (R95). With lease period 1 the count is
1 again and the next decrement reaches 0, as R95's table says (DESIGN CHOICE against a sentence of R93, log 25). -/
def takeClaim (k : ClientId) (s : State) : State :=
  if (s.counter k).running then s.setCounter k { count := leasePeriod s k, running := true } else s

/-- A load: the count becomes the period, and the counter runs if the period is nonzero (R93). -/
def takeLoad (k : ClientId) (period : Nat) (s : State) : State :=
  s.setCounter k { count := period, running := decide (period ≠ 0) }

/-- A stop: the counter is STOPPED at 0, and the client leaves the Lapse Pending Set, its notice discarded (R96). -/
def takeStop (k : ClientId) (s : State) : State :=
  { s.setCounter k { count := 0, running := false } with
    lapsePending := s.lapsePending.filter fun j => decide (j ≠ k) }

/-- The Lease Monitor takes one message of the engine's. -/
def takeLeaseMsg (s : State) : LeaseMsg → State
  | .claim k => takeClaim k s
  | .load k p => takeLoad k p s
  | .stop k => takeStop k s

/-- The engine hands a message to the Lease Monitor, and does not wait for it to be taken: a reload claim (R80). -/
def handLease (m : LeaseMsg) (s : State) : State :=
  { s with leaseInbox := s.leaseInbox ++ [m] }

/-- The Lease Monitor takes everything handed to it, in order. This happens at the latest before the engine takes its next
piece of work, and before a load or a stop (log 5). -/
def settleLease (s : State) : State :=
  let t := s.leaseInbox.foldl takeLeaseMsg s
  { s with counters := t.counters, lapsePending := t.lapsePending, leaseInbox := [] }

/-- Loads and stops: the Lease Monitor takes them within the engine's piece, after everything handed to it before (R29, R31
step 3, R90, R102; log 5). -/
def askLease (ms : List LeaseMsg) (s : State) : State :=
  settleLease { s with leaseInbox := s.leaseInbox ++ ms }

/-! ### Scan lists -/

/-- The scan list of a name (R110). -/
def State.scanList (s : State) : ListName → ScanList
  | .a => s.listA
  | .b => s.listB

/-- Changing the scan list of a name. -/
def State.updScanList (n : ListName) (f : ScanList → ScanList) (s : State) : State :=
  match n with
  | .a => { s with listA := f s.listA }
  | .b => { s with listB := f s.listB }

/-- The other of the two lists: one is SHOWING and the other FILLING (R112). -/
def otherList : ListName → ListName
  | .a => .b
  | .b => .a

/-- The FILLING list (R112). -/
def State.filling (s : State) : ListName :=
  otherList s.showing

/-! ### Geometry and source mapping -/

/-- Whether a rectangle covers a pixel (00_scope.md, "conventions"; R3). -/
def Geometry.covers (g : Geometry) (px py : Nat) : Bool :=
  decide (g.x ≤ px ∧ px < g.x + g.width ∧ g.y ≤ py ∧ py < g.y + g.height)

/-- Whether at least one pixel lies in both rectangles (00_scope.md, "conventions"). -/
def Geometry.overlaps (g h : Geometry) : Bool :=
  decide (max g.x h.x < min (g.x + g.width) (h.x + h.width) ∧ max g.y h.y < min (g.y + g.height) (h.y + h.height))

/-- The source column shown at panel column `px` of a region (R18). -/
def sourceColumn (g : Geometry) (c : Source) (px : Nat) : Nat :=
  (c.originColumn + (px - g.x)) % c.wrapWidth

/-- The source row shown at panel row `py` of a region (R18). -/
def sourceRow (g : Geometry) (c : Source) (py : Nat) : Nat :=
  (c.originRow + (py - g.y)) % c.wrapHeight

/-! ### Frames and event flags -/

/-- The effective frame of a committed change applied now: F while the unit is WAITING, F + 1 otherwise (R72). R83 keeps
the unit from COPYING at an application (log 17). -/
def effectiveFrame (s : State) : Frame :=
  match s.snapState with
  | .waiting => s.snapFrame
  | _ => s.snapFrame + 1

/-- Whether the Snapshot Unit is COPYING (R114). -/
def isCopying (s : State) : Bool :=
  match s.snapState with
  | .copying _ => true
  | _ => false

/-- SNAPSHOT_LATE is set (R123). -/
def State.setSnapshotLate (s : State) : State :=
  { s with flags := { s.flags with snapshotLate := true } }

/-- LINE_DROPPED is set (R140, R142). -/
def State.setLineDropped (s : State) : State :=
  { s with flags := { s.flags with lineDropped := true } }

/-- SPAN_OVERFLOW is set (R138). -/
def State.setSpanOverflow (s : State) : State :=
  { s with flags := { s.flags with spanOverflow := true } }

/-- REQUEST_OVERRUN is set (R167). -/
def State.setRequestOverrun (s : State) : State :=
  { s with flags := { s.flags with requestOverrun := true } }

/-- LOOKUP_OVERRUN is set (R151). -/
def State.setLookupOverrun (s : State) : State :=
  { s with flags := { s.flags with lookupOverrun := true } }

end Sys2Proof.Machine
end

