-- ==== Sys2Proof/Machine/Publication.lean ====
section
/-! DEFINITION. Committed changes: the six steps of an applied publish (R65 to R71), the application of moves (R49, R50),
of a close (R33) and of a clear (R90). -/

namespace Sys2Proof.Machine

/-! ### The guard check -/

/-- The rectangle a record places in the set of the guard check of client `k`'s publish (R65). -/
def guardRect (k : ClientId) : Region → Option Geometry
  | .free => none
  | .reserved g => if g.band = .guarded ∧ g.owner = k then some g.staged.geometry else none
  | .live g =>
    if g.band = .guarded then
      if g.owner = k then
        match g.staged with
        | none => some g.committed.geometry
        | some st => if st.retire then none else some st.part.geometry
      else some g.committed.geometry
    else none

/-- The set of guarded rectangles the table would hold if client `k`'s publish went through, by region number (R65). -/
def guardSet (k : ClientId) (s : State) : List (RegionId × Geometry) :=
  (List.finRange 64).filterMap fun i => (guardRect k (s.region i)).map fun g => (i, g)

/-- The lowest-numbered region of the set that overlaps another, and the lowest-numbered region that overlaps it; `none`
when no two rectangles overlap (R65, R66). -/
def firstOverlap (set : List (RegionId × Geometry)) : Option (RegionId × RegionId) :=
  set.findSome? fun a =>
    (set.find? fun b => decide (b.1 ≠ a.1) && a.2.overlaps b.2).map fun b => (a.1, b.1)

/-! ### Retires, edits and insertions -/

/-- The retire step: every LIVE region of the client that carries the retire mark becomes FREE (R67). -/
def retireStep (k : ClientId) (s : State) : State :=
  freeRecords (s.idsWhere (isRetiringOf k)) s

/-- The staged part of a LIVE record of client `k` becomes its committed part (R68). -/
def commitStaged (k : ClientId) : Region → Region
  | .live g =>
    if g.owner = k then
      match g.staged with
      | some st => .live { g with committed := st.part, staged := none }
      | none => .live g
    else .live g
  | r => r

/-- The edit step (R68). -/
def editStep (k : ClientId) (s : State) : State :=
  s.mapRegions fun _ r => commitStaged k r

/-- The creation order of a record; 0 when it has none (R1). -/
def creationOrder : Region → Nat
  | .reserved g => g.order
  | _ => 0

/-- The client's RESERVED regions in increasing creation order (R42, R69). -/
def createdInOrder (k : ClientId) (s : State) : List RegionId :=
  (s.idsWhere (isReservedOf k)).insertionSort fun i j => creationOrder (s.region i) ≤ creationOrder (s.region j)

/-- One RESERVED region becomes LIVE: its staged part becomes its committed part, its creation order is removed, and its
id is inserted at position 1 of its band list (R11, R42). The changed frame is the publish's effective frame. -/
def insertRegion (eff : Frame) (s : State) (i : RegionId) : State :=
  match s.region i with
  | .reserved g =>
    { s.setRegion i (.live { owner := g.owner, band := g.band, committed := g.staged, staged := none, changed := eff }) with
      bands := s.bands.modify g.band (fun l => i :: l) }
  | _ => s

/-- The insertion step (R69). -/
def insertionStep (ids : List RegionId) (eff : Frame) (s : State) : State :=
  ids.foldl (insertRegion eff) s

/-! ### Moves -/

/-- Putting an id back immediately before a reference; at the end of a list that lacks the reference (log 17). -/
def insertBefore (reference x : RegionId) : List RegionId → List RegionId
  | [] => [x]
  | y :: ys => if y = reference then x :: y :: ys else y :: insertBefore reference x ys

/-- Putting an id back immediately after a reference; at the end of a list that lacks the reference (log 17). -/
def insertAfter (reference x : RegionId) : List RegionId → List RegionId
  | [] => [x]
  | y :: ys => if y = reference then y :: x :: ys else y :: insertAfter reference x ys

/-- The effect of a move on the band list of its subject (R49). -/
def placeSubject (p : Placement) (x : RegionId) (l : List RegionId) : List RegionId :=
  match p with
  | .top => x :: l.erase x
  | .bottom => l.erase x ++ [x]
  | .above r => insertBefore r x (l.erase x)
  | .below r => insertAfter r x (l.erase x)

/-- Whether a move is skipped: it is dead, or its subject or its reference is not LIVE (R50). -/
def moveSkipped (s : State) (m : Move) : Bool :=
  m.dead || !isLive (s.region m.subject) || (placementReference m.placement).any fun r => !isLive (s.region r)

/-- What the move step has done so far: the band lists, the counts, and the subjects of applied moves (R70). -/
structure MoveTally where
  bands : Bands
  applied : Nat
  skipped : Nat
  subjects : List RegionId
  deriving DecidableEq, Repr

/-- One move is judged, and applied or skipped (R49, R50). -/
def applyMove (s : State) (t : MoveTally) (m : Move) : MoveTally :=
  if moveSkipped s m then { t with skipped := t.skipped + 1 }
  else
    match regionBand (s.region m.subject) with
    | some b =>
      { t with
        bands := t.bands.modify b (placeSubject m.placement m.subject)
        applied := t.applied + 1
        subjects := m.subject :: t.subjects }
    | none => t

/-- The moves of a client's list applied in staging order (R49). -/
def tallyMoves (k : ClientId) (s : State) : MoveTally :=
  (s.client k).moves.foldl (applyMove s) { bands := s.bands, applied := 0, skipped := 0, subjects := [] }

/-- The move step: the moves applied, then the list emptied (R49, R70). -/
def moveStep (k : ClientId) (s : State) : State :=
  { s with bands := (tallyMoves k s).bands }.updClient k fun c => { c with moves := [] }

/-! ### Stamps, and the publish as a whole -/

/-- The stamp of a LIVE record (R17). -/
def stampRegion (eff : Frame) : Region → Region
  | .live g => .live { g with changed := eff }
  | r => r

/-- The stamp step: the changed frame of each named region is the effective frame (R17, R70). -/
def stampStep (ids : List RegionId) (eff : Frame) (s : State) : State :=
  s.mapRegions fun i r => if i ∈ ids then stampRegion eff r else r

/-- The publishing client is ACTIVE and its parked-entry flag is NO (R35, R66, R71). -/
def leavePublishing (k : ClientId) (s : State) : State :=
  s.updClient k fun c => { c with state := .active, parkedEntry := false }

/-- An OK with no fields. -/
def okReply : Reply :=
  { code := .ok, detail := .none, fields := .none }

/-- A refusal with a code and no detail. -/
def refusal (c : AnswerCode) : Reply :=
  { code := c, detail := .none, fields := .none }

/-- The steps of a publish after its guard check passes (R67 to R71), with its answer. -/
def publishSteps (k : ClientId) (s : State) : State × Reply :=
  let eff := effectiveFrame s
  let retired := retireStep k s
  let edited := retired.idsWhere (isStagedOf k)
  let replaced := editStep k retired
  let created := createdInOrder k replaced
  let inserted := insertionStep created eff replaced
  let tally := tallyMoves k inserted
  let moved := moveStep k inserted
  let stamped := stampStep (created ++ edited ++ tally.subjects) eff moved
  (leavePublishing k stamped,
    { code := .ok, detail := .none, fields := .publish (some eff) tally.applied tally.skipped })

/-- A publish is applied: the guard check first, and then, unless it fails, the other steps (R65 to R71). A refused
publish keeps its staging (R66). -/
def applyPublish (k : ClientId) (s : State) : State × Reply :=
  match firstOverlap (guardSet k s) with
  | some (a, b) => (leavePublishing k s, { code := .guardOverlap, detail := .none, fields := .overlap a b })
  | none => publishSteps k s

/-! ### Close and clear -/

/-- The OK of an applied close or clear, with its effective frame (R33, R90). -/
def committedReply (s : State) : Reply :=
  { code := .ok, detail := .none, fields := .effective (effectiveFrame s) }

/-- A close is applied: every LIVE record of the target becomes FREE and the target becomes CLOSED (R33). -/
def applyClose (k : ClientId) (s : State) : State :=
  (freeRecords (s.idsWhere (isLiveOf k)) s).updClient k fun _ => closedClient

/-- The Client Table after a clear (R37). -/
def clearedClient (k : ClientId) (c : Client) : Client :=
  if k = Config.supervisor then { c with owned := 0, moves := [] } else closedClient

/-- A clear is applied (R90, R37, R20, R52): the Lease Monitor stops the counters of clients 1 to 15 and empties the Lapse
Pending Set, and the tables become those of a device with no region and only client 0 open. -/
def applyClear (s : State) : State :=
  { askLease ((clientsWhere fun k => decide (k ≠ Config.supervisor)).map .stop) s with
    lapsePending := []
    regions := Vector.replicate 64 .free
    bands := { guarded := [], elevated := [], ordinary := [] }
    clients := Vector.ofFn fun k => clearedClient k (s.client k) }

/-- The kind field of an answer to a parked request (R181). -/
def kindByte (k : RequestKind) : Byte :=
  BitVec.ofNat 8 (requestKindNumber k)

/-- One entry of the Parked List is applied, giving the answer to its requester (R87). -/
def applyEntry (e : ParkedEntry) (s : State) : State × Answer :=
  match e with
  | .publish k tag =>
    let r := applyPublish k s
    (r.1, { kind := kindByte .publish, header := some { client := k, tag := tag }, reply := r.2 })
  | .close k tag =>
    let t := applyClose k s
    (t, { kind := kindByte .closeClient, header := some { client := Config.supervisor, tag := tag },
          reply := committedReply t })
  | .clearAll tag =>
    let t := applyClear s
    (t, { kind := kindByte .clearAll, header := some { client := Config.supervisor, tag := tag },
          reply := committedReply t })

end Sys2Proof.Machine
end

