-- ==== Sys2Proof/Machine/Engine.lean ====
section
/-! DEFINITION. The Request Engine's pieces of work: how one is taken (R76, R77), the common checks (R78, R80), how its
answers are placed or held (R81, R82), and how a piece goes on after an answer (R82, R87, R32). -/

namespace Sys2Proof.Machine

/-! ### Placing answers -/

/-- Whether the Answer Queue has room for an answer (R82). -/
def answerRoom (s : State) : Bool :=
  decide (s.answers.length < Config.answerQueueSize)

/-- An answer joins the Answer Queue. -/
def pushAnswer (a : Answer) (s : State) : State :=
  { s with answers := s.answers ++ [a] }

/-- A piece of work is finished and the engine becomes FREE (R76). -/
def finishPiece (s : State) : State :=
  { s with engine := .free }

/-- The copy-end application is finished: the copy-end indication is lowered and the engine becomes FREE (R86, R87). -/
def finishApplication (s : State) : State :=
  { s with copyEndDue := false, engine := .free }

/-- The engine once an answer of its piece is placed (R76): FREE when the piece has no more to do, WORKING on the rest
otherwise. A copy-end application has no more to do when the Parked List is empty (R87). -/
def answerPlaced (r : Resume) (s : State) : State :=
  match r with
  | .finish => finishPiece s
  | .closeTail _ _ _ => { s with engine := .working r }
  | .application => if s.parked.isEmpty then finishApplication s else { s with engine := .working .application }

/-- An answer of a piece, with what the piece has left to do: placed, or held by a STALLED engine when the Answer Queue is
full (R76, R82). -/
def placeAnswer (a : Answer) (r : Resume) (s : State) : State :=
  if answerRoom s then answerPlaced r (pushAnswer a s) else { s with engine := .stalled a r }

/-- The last answer of a piece. -/
def placeLast (a : Answer) (s : State) : State :=
  placeAnswer a .finish s

/-- A STALLED engine places the answer it holds when the Answer Queue has room (R76, R82). -/
def placeHeld (s : State) : State :=
  match s.engine with
  | .stalled a r => placeAnswer a r s
  | _ => s

/-- The answer to a request, at the end of the piece that takes it (R81). -/
def answerRequest (k : RequestKind) (h : Header) (r : Reply) (s : State) : State :=
  placeLast { kind := kindByte k, header := some h, reply := r } s

/-! ### The copy-end application -/

/-- The first entry of the Parked List leaves it, is applied at its own moment of application (R84) and is answered; when
the Answer Queue is full the engine stalls and the later entries keep their places. With no entry left the application is
finished (R86, R87). -/
def applyNext (s : State) : State :=
  match s.parked with
  | [] => finishApplication s
  | e :: rest =>
    let r := applyEntry e { s with parked := rest }
    placeAnswer r.2 .application r.1

/-! ### Committed work applied at once -/

/-- A committed change applied in the piece that takes its request: the committed-work indication is raised when the
engine decides to apply at once and lowered when the last change is made, before the answer is placed (R83). -/
def applyNow (e : ParkedEntry) (s : State) : State :=
  let r := applyEntry e { s with committedWork := true }
  placeLast r.2 { r.1 with committedWork := false }

/-- Steps 3 to 5 of R31 for a close of `k`: the Lease Monitor stops `k`'s counter, `k` becomes CLOSING, and the close
is parked (when the unit was COPYING at the taking, R83) or applied at once (R33). -/
def closeTail (k : ClientId) (tag : Tag) (parks : Bool) (s : State) : State :=
  let t := (askLease [.stop k] s).updClient k fun c => { c with state := .closing }
  if parks then
    finishPiece ({ t with parked := t.parked ++ [ParkedEntry.close k tag] }.updClient k fun c => { c with parkedEntry := true })
  else applyNow (ParkedEntry.close k tag) t

/-! ### Going on after a held answer -/

/-- A WORKING engine goes on with the rest of its piece (R76, R82): the later steps of a close (R32), or the next entry of a
copy-end application (R87). -/
def goOn (s : State) : State :=
  match s.engine with
  | .working .finish => finishPiece s
  | .working (.closeTail k tag parks) => closeTail k tag parks s
  | .working .application => applyNext s
  | .free | .stalled _ _ => s

/-! ### Taking work -/

/-- Whether the engine may take a lapse notice or a request: it is FREE and no copy-end application is due (R76, R77). -/
def engineOpen (s : State) : Bool :=
  decide (s.engine = .free) && !s.copyEndDue

/-- The engine takes the oldest message in the Request Queue when that message is of the given kind (`none`: malformed).
It does so when it is FREE, no copy-end application is due and no lapse notice waits (R76, R77). The Lease Monitor has by
then taken what the engine handed it before (log 5). The answer is the message and the state with it in hand. -/
def takeRequest (kind : Option RequestKind) (s : State) : Option (List Word × State) :=
  if engineOpen s then
    let t := settleLease s
    match t.lapsePending, t.requests with
    | [], m :: rest =>
      if messageKind m = kind then some (m, { t with requests := rest, engine := .working .finish }) else none
    | _, _ => none
  else none

/-! ### The common checks -/

/-- Checks 2 and 3 of R78. -/
def clientRefusal (kind : RequestKind) (h : Header) (s : State) : Option AnswerCode :=
  match (s.client h.client).state with
  | .closed | .closing => some .noClient
  | .lapsed => if kind = .resume ∨ kind = .queryClient then none else some .lapsed
  | .active | .publishing => none

/-- Checks 4 and 5 of R78. -/
def laterRefusal (kind : RequestKind) (h : Header) (s : State) : Option AnswerCode :=
  if ((s.client h.client).state = .publishing ∧ stagingKind kind) ∨ (clearParked s ∧ ¬ queryKind kind) then some .held
  else if supervisorKind kind ∧ h.client ≠ Config.supervisor then some .notPermitted
  else none

/-- A FRAME_START that the Lease Monitor takes within a piece, once its request has been taken (R31, R90, R93; log 7). -/
def framedBy (race : LeaseRace) (s : State) : State :=
  match race with
  | .apart => s
  | .frameFirst => countDown s

/-- A request of a kind: it is taken, judged by the common checks, and, when it passes them, carried out by its kind's
own rule. A request that passes checks 1 to 3 makes a reload claim before any other effect (R78, R79, R80). A FRAME_START
within the piece comes after the taking and before any load or stop (log 7). -/
def runRacing (race : LeaseRace) (kind : RequestKind) (own : List Word → Header → State → State) (s : State) : State :=
  match takeRequest (some kind) s with
  | none => s
  | some (m, taken) =>
    let t := framedBy race taken
    let h := messageHeader m
    match clientRefusal kind h t with
    | some c => answerRequest kind h (refusal c) t
    | none =>
      let u := handLease (.claim h.client) t
      match laterRefusal kind h u with
      | some c => answerRequest kind h (refusal c) u
      | none => own m h u

/-- A request whose piece loads and stops no counter: a FRAME_START within it is the same as one after it (log 7). -/
def runRequest (kind : RequestKind) (own : List Word → Header → State → State) (s : State) : State :=
  runRacing .apart kind own s

end Sys2Proof.Machine
end

