-- ==== Sys2Proof/Machine/Requests.lean ====
section
/-! DEFINITION. The requests: each kind's own checks and effects, and the meaning of each request command. -/

namespace Sys2Proof.Machine

/-- The class of a client; a client that makes a request always has one (R21; log 17). -/
def clientClass (s : State) (k : ClientId) : Band :=
  match (s.client k).terms with
  | some t => t.cls
  | none => .ordinary

/-- The quota of a client; a client that makes a request always has one (R21; log 17). -/
def clientQuota (s : State) (k : ClientId) : Nat :=
  match (s.client k).terms with
  | some t => t.quota
  | none => 0

/-- A BAD_FIELD that names a failing group (R6, R181). -/
def badGroup (d : Detail) : Reply :=
  { code := .badField, detail := d, fields := .none }

/-! ### MALFORMED -/

/-- The answer to a malformed message: the kind field as received, the client and tag when the message has two words, no
kind fields (R79). -/
def malformedAnswer (m : List Word) : Answer :=
  { kind := messageKindField m, header := if m.length ≤ 1 then none else some (messageHeader m),
    reply := refusal .malformed }

/-- A malformed message is taken and answered (R79). -/
def runMalformed (s : State) : State :=
  match takeRequest none s with
  | none => s
  | some (m, t) => placeLast (malformedAnswer m) t

/-- MALFORMED_MESSAGE (R79). -/
def execMalformedMessage (s : State) : Host.Outcome State Fault Refusal :=
  whileHigh runMalformed s

/-! ### CREATE -/

/-- The lowest-numbered FREE record (R7). -/
def lowestFree (s : State) : Option RegionId :=
  (List.finRange 64).find? fun i => isFree (s.region i)

/-- The checks of a CREATE in order (R54); with none failing, the record it takes. -/
def createChecks (m : List Word) (k : ClientId) (s : State) : Except Reply RegionId :=
  if s.panel.unconfigured then .error (refusal .noPanel)
  else if (s.client k).owned = clientQuota s k then .error (refusal .quota)
  else
    match lowestFree s with
    | none => .error (refusal .noRegion)
    | some i =>
      if clientClass s k = .guarded ∧ Config.guardedLimit ≤ guardedCount s then .error (refusal .guardLimit)
      else
        match (Groups.ofPart (createPart m)).failing s.panel (clientClass s k) with
        | some d => .error (badGroup d)
        | none => .ok i

/-- The number of a client's RESERVED records (R8). -/
def reservedCount (s : State) (k : ClientId) : Nat :=
  (s.idsWhere (isReservedOf k)).length

/-- A record becomes RESERVED for a client with the message's groups (R7, R8, R55); the owned count rises by 1 (R24). -/
def reserveRecord (i : RegionId) (k : ClientId) (p : Part) (s : State) : State :=
  (s.setRegion i (.reserved { owner := k, band := clientClass s k, staged := p, order := reservedCount s k + 1 })).updClient k
    fun c => { c with owned := c.owned + 1 }

/-- A CREATE's own checks and effect (R54, R55). -/
def ownCreate (m : List Word) (h : Header) (s : State) : State :=
  match createChecks m h.client s with
  | .error r => answerRequest .create h r s
  | .ok i =>
    answerRequest .create h { code := .ok, detail := .none, fields := .region i }
      (reserveRecord i h.client (createPart m) s)

/-- CREATE (R55). -/
def execCreate (s : State) : Host.Outcome State Fault Refusal :=
  whileHigh (runRequest .create ownCreate) s

/-! ### EDIT -/

/-- An EDIT's effect on its region's staged part, made from the committed part if there is none (R9, R57). -/
def editRegion (g : Groups) : Region → Region
  | .free => .free
  | .reserved r => .reserved { r with staged := g.applyTo r.staged }
  | .live r =>
    let st := r.staged.getD { part := r.committed, retire := false }
    .live { r with staged := some { st with part := g.applyTo st.part } }

/-- Whether a record carries the retire mark (R10). -/
def retireMarked : Region → Bool
  | .live r => r.staged.any (·.retire)
  | _ => false

/-- The checks of an EDIT in order (R56); with none failing, the region it names. The BAD_FIELD of check 1, a region number
above 63, names no group: its detail is 0 (log 23). -/
def editChecks (m : List Word) (k : ClientId) (s : State) : Except Reply RegionId :=
  match regionNumber (lowNumber m 3) with
  | none => .error (refusal .badField)
  | some i =>
    match regionBand (s.region i) with
    | none => .error (refusal .badRegion)
    | some b =>
      if regionOwner (s.region i) ≠ some k then .error (refusal .badRegion)
      else if retireMarked (s.region i) then .error (refusal .retiring)
      else
        match (editGroups m).failing s.panel b with
        | some d => .error (badGroup d)
        | none => .ok i

/-- An EDIT's own checks and effect (R56, R57). -/
def ownEdit (m : List Word) (h : Header) (s : State) : State :=
  match editChecks m h.client s with
  | .error r => answerRequest .edit h r s
  | .ok i => answerRequest .edit h okReply (s.setRegion i (editRegion (editGroups m) (s.region i)))

/-- EDIT (R57). -/
def execEdit (s : State) : Host.Outcome State Fault Refusal :=
  whileHigh (runRequest .edit ownEdit) s

/-! ### RETIRE -/

/-- The retire mark is set on a LIVE region, whose staged part is made if there is none (R10, R59). -/
def markRetire : Region → Region
  | .live r =>
    let st := r.staged.getD { part := r.committed, retire := false }
    .live { r with staged := some { st with retire := true } }
  | r => r

/-- A RETIRE of a RESERVED region frees it and removes the owner's moves with it as subject (R58, R47). -/
def retireReserved (i : RegionId) (k : ClientId) (s : State) : State :=
  (freeRecords [i] s).updClient k fun c => { c with moves := c.moves.filter fun v => decide (v.subject ≠ i) }

/-- A RETIRE's own checks and effect (R58, R59). -/
def ownRetire (m : List Word) (h : Header) (s : State) : State :=
  match regionNumber (lowNumber m 3) with
  | none => answerRequest .retire h (refusal .badField) s
  | some i =>
    if regionOwner (s.region i) ≠ some h.client then answerRequest .retire h (refusal .badRegion) s
    else if isLive (s.region i) then answerRequest .retire h okReply (s.setRegion i (markRetire (s.region i)))
    else answerRequest .retire h okReply (retireReserved i h.client s)

/-- RETIRE (R58, R59). -/
def execRetire (s : State) : Host.Outcome State Fault Refusal :=
  whileHigh (runRequest .retire ownRetire) s

/-! ### RESTACK -/

/-- Checks 4 to 7 of R45 on the reference of an ABOVE or BELOW: it differs from the subject, is not FREE, lies in the
subject's band, and is not another owner's RESERVED region. -/
def referenceRefusal (subject reference : RegionId) (k : ClientId) (s : State) : Option AnswerCode :=
  if reference = subject then some .badRegion
  else
    match s.region reference with
    | .free => some .badRegion
    | .reserved g =>
      if regionBand (s.region subject) ≠ some g.band then some .bandMismatch
      else if g.owner ≠ k then some .badRegion else none
    | .live g => if regionBand (s.region subject) ≠ some g.band then some .bandMismatch else none

/-- The checks of a RESTACK in order (R45); with none failing, the move it stages. -/
def restackChecks (m : List Word) (k : ClientId) (s : State) : Except AnswerCode Move :=
  match restackPlacement m, regionNumber (lowNumber m 3) with
  | some p, some i =>
    if regionOwner (s.region i) ≠ some k then .error .badRegion
    else if retireMarked (s.region i) then .error .retiring
    else
      match (placementReference p).bind fun r => referenceRefusal i r k s with
      | some c => .error c
      | none =>
        if Config.moveListSize ≤ (s.client k).moves.length then .error .moveFull
        else .ok { subject := i, placement := p, dead := false }
  | _, _ => .error .badField

/-- A RESTACK's own checks and effect (R45, R46). -/
def ownRestack (m : List Word) (h : Header) (s : State) : State :=
  match restackChecks m h.client s with
  | .error c => answerRequest .restack h (refusal c) s
  | .ok v =>
    answerRequest .restack h
      { code := .ok, detail := .none, fields := .moveCount ((s.client h.client).moves.length + 1) }
      (s.updClient h.client fun c => { c with moves := c.moves ++ [v] })

/-- RESTACK (R46). -/
def execRestack (s : State) : Host.Outcome State Fault Refusal :=
  whileHigh (runRequest .restack ownRestack) s

/-! ### DISCARD, PUBLISH, RENEW -/

/-- A DISCARD's effect (R60). -/
def ownDiscard (_ : List Word) (h : Header) (s : State) : State :=
  answerRequest .discard h okReply (discardStaging h.client s)

/-- DISCARD (R60). -/
def execDiscard (s : State) : Host.Outcome State Fault Refusal :=
  whileHigh (runRequest .discard ownDiscard) s

/-- A publish is parked: its entry joins the Parked List, the client becomes PUBLISHING and its parked-entry flag YES
(R64, R35). No answer is placed. -/
def parkPublish (k : ClientId) (tag : Tag) (s : State) : State :=
  finishPiece ({ s with parked := s.parked ++ [ParkedEntry.publish k tag] }.updClient k
    fun c => { c with state := .publishing, parkedEntry := true })

/-- A PUBLISH's effect: answered at once when the staging is empty (R62), parked while the unit is COPYING (R64), applied
at once otherwise (R63). -/
def ownPublish (_ : List Word) (h : Header) (s : State) : State :=
  if stagingEmpty h.client s then
    answerRequest .publish h { code := .ok, detail := .none, fields := .publish none 0 0 } s
  else if isCopying s then parkPublish h.client h.tag s
  else applyNow (ParkedEntry.publish h.client h.tag) s

/-- PUBLISH (R63). -/
def execPublish (s : State) : Host.Outcome State Fault Refusal :=
  whileHigh (runRequest .publish ownPublish) s

/-- A RENEW's effect is its reload claim alone (R61). -/
def ownRenew (_ : List Word) (h : Header) (s : State) : State :=
  answerRequest .renew h okReply s

/-- RENEW (R61). -/
def execRenew (s : State) : Host.Outcome State Fault Refusal :=
  whileHigh (runRequest .renew ownRenew) s

/-! ### The queries -/

/-- The position of a LIVE region in its band, 1 at the top; 0 for other records (R19, R40, R182). -/
def positionInBand (s : State) (i : RegionId) : Nat :=
  match s.region i with
  | .live g => (s.bands.get g.band).idxOf i + 1
  | _ => 0

/-- What a QUERY_REGION answer reports of a region to client `k` (R19). -/
def regionReport (s : State) (i : RegionId) (k : ClientId) : RegionReport :=
  { id := i, region := s.region i, position := positionInBand s i,
    stagedShown := decide (regionOwner (s.region i) = some k) }

/-- A QUERY_REGION's own check and answer (R19). -/
def ownQueryRegion (m : List Word) (h : Header) (s : State) : State :=
  match regionNumber (lowNumber m 3) with
  | none => answerRequest .queryRegion h (refusal .badField) s
  | some i =>
    answerRequest .queryRegion h
      { code := .ok, detail := .none, fields := .regionReport (regionReport s i h.client) } s

/-- QUERY_REGION (R19). -/
def execQueryRegion (s : State) : Host.Outcome State Fault Refusal :=
  whileHigh (runRequest .queryRegion ownQueryRegion) s

/-- What a QUERY_CLIENT answer reports (R36). -/
def clientReport (s : State) (k : ClientId) : ClientReport :=
  { target := k, state := (s.client k).state, terms := (s.client k).terms, owned := (s.client k).owned,
    leaseRemaining := (s.counter k).count, moveCount := (s.client k).moves.length,
    parkedEntry := (s.client k).parkedEntry }

/-- A QUERY_CLIENT's own checks and answer, after its reload (R36). -/
def ownQueryClient (m : List Word) (h : Header) (s : State) : State :=
  match clientNumber (lowNumber m 3) with
  | none => answerRequest .queryClient h (refusal .badField) s
  | some k =>
    if h.client ≠ Config.supervisor ∧ k ≠ h.client then answerRequest .queryClient h (refusal .notPermitted) s
    else
      answerRequest .queryClient h { code := .ok, detail := .none, fields := .clientReport (clientReport s k) } s

/-- The reload of a QUERY_CLIENT, taken before its answer is formed, and a FRAME_START before or after it if one falls
within the piece (R36, R95; log 7). -/
def reloadWithin (race : QueryRace) (k : ClientId) (s : State) : State :=
  match race with
  | .apart => settleLease (handLease (.claim k) s)
  | .beforeReload => settleLease (handLease (.claim k) (countDown s))
  | .afterReload => countDown (settleLease (handLease (.claim k) s))

/-- A QUERY_CLIENT is taken, judged and answered (R36). Checks 4 and 5 of R78 refuse no query. -/
def runQueryClient (race : QueryRace) (s : State) : State :=
  match takeRequest (some .queryClient) s with
  | none => s
  | some (m, t) =>
    let h := messageHeader m
    match clientRefusal .queryClient h t with
    | some c => answerRequest .queryClient h (refusal c) (if race = .apart then t else countDown t)
    | none => ownQueryClient m h (reloadWithin race h.client t)

/-- QUERY_CLIENT (R36). -/
def execQueryClient (race : QueryRace) (s : State) : Host.Outcome State Fault Refusal :=
  whileHigh (runQueryClient race) s

/-! ### RESUME -/

/-- A RESUME's own check and effect (R102): a LAPSED client becomes ACTIVE, and its counter is loaded. -/
def ownResume (_ : List Word) (h : Header) (s : State) : State :=
  if (s.client h.client).state = .lapsed then
    answerRequest .resume h okReply
      (askLease [.load h.client (leasePeriod s h.client)] (s.updClient h.client fun c => { c with state := .active }))
  else answerRequest .resume h (refusal .wrongState) s

/-- RESUME (R102, R93). -/
def execResume (s : State) (race : LeaseRace := .apart) : Host.Outcome State Fault Refusal :=
  whileHigh (runRacing race .resume ownResume) s

/-! ### The supervisor kinds -/

/-- A client number that OPEN_CLIENT and CLOSE_CLIENT accept: 1 to 15 (R26, R28, R30). -/
def targetNumber (n : Nat) : Option ClientId :=
  if n = 0 then none else clientNumber n

/-- The field checks of an OPEN_CLIENT in order (R28); with none failing, its target and terms. -/
def openFields (m : List Word) : Option (ClientId × Terms) :=
  match targetNumber (lowNumber m 3), classOf (enumField m 3) with
  | some k, some b =>
    if 1 ≤ messageNumber m 4 ∧ messageNumber m 4 ≤ 64 ∧ messageNumber m 5 ≤ 1023 then
      some (k, { cls := b, quota := messageNumber m 4, period := messageNumber m 5 })
    else none
  | _, _ => none

/-- An OPEN_CLIENT's own checks and effect (R28, R29). -/
def ownOpenClient (m : List Word) (h : Header) (s : State) : State :=
  match openFields m with
  | none => answerRequest .openClient h (refusal .badField) s
  | some (k, t) =>
    if (s.client k).state = .closed then
      answerRequest .openClient h okReply
        (askLease [.load k t.period] (s.updClient k fun _ =>
          { state := .active, terms := some t, owned := 0, moves := [], parkedEntry := false }))
    else answerRequest .openClient h (refusal .wrongState) s

/-- OPEN_CLIENT (R29, R93). -/
def execOpenClient (s : State) (race : LeaseRace := .apart) : Host.Outcome State Fault Refusal :=
  whileHigh (runRacing race .openClient ownOpenClient) s

/-- The answer to a cancelled publish (R88, R32, R181). -/
def cancelledAnswer (k : ClientId) (tag : Tag) (cause : Detail) : Answer :=
  { kind := kindByte .publish, header := some { client := k, tag := tag },
    reply := { code := .cancelled, detail := cause, fields := .none } }

/-- The taking of an accepted close (R31): the target's staging is discarded; a parked publish of it is removed and
answered CANCELLED with cause CLOSE before the close's further steps (R32). Whether the close parks is judged at the
taking (R83). -/
def takeClose (k : ClientId) (tag : Tag) (s : State) : State :=
  let parks := isCopying s
  let t := discardStaging k s
  match parkedPublishTag k t with
  | some ptag => goOn (placeAnswer (cancelledAnswer k ptag .close) (.closeTail k tag parks) (removePublish k t))
  | none => closeTail k tag parks t

/-- A CLOSE_CLIENT's own checks and effect (R30, R31). -/
def ownCloseClient (m : List Word) (h : Header) (s : State) : State :=
  match targetNumber (lowNumber m 3) with
  | none => answerRequest .closeClient h (refusal .badField) s
  | some k =>
    match (s.client k).state with
    | .closed | .closing => answerRequest .closeClient h (refusal .wrongState) s
    | .active | .publishing | .lapsed => takeClose k h.tag s

/-- CLOSE_CLIENT (R31, R96). -/
def execCloseClient (s : State) (race : LeaseRace := .apart) : Host.Outcome State Fault Refusal :=
  whileHigh (runRacing race .closeClient ownCloseClient) s

/-- A CLEAR_ALL's effect: parked while the unit is COPYING, applied at once otherwise (R89). -/
def ownClearAll (_ : List Word) (h : Header) (s : State) : State :=
  if isCopying s then finishPiece { s with parked := s.parked ++ [ParkedEntry.clearAll h.tag] }
  else applyNow (ParkedEntry.clearAll h.tag) s

/-- CLEAR_ALL (R89, R90, R96). -/
def execClearAll (s : State) (race : LeaseRace := .apart) : Host.Outcome State Fault Refusal :=
  whileHigh (runRacing race .clearAll ownClearAll) s

/-- A SET_PANEL's own checks and effect (R108, R109). -/
def ownSetPanel (m : List Word) (h : Header) (s : State) : State :=
  let p : Panel := { width := messageNumber m 3, height := messageNumber m 4 }
  if !p.valid then answerRequest .setPanel h (refusal .badField) s
  else if (s.idsWhere fun r => !isFree r).isEmpty then answerRequest .setPanel h okReply { s with panel := p }
  else answerRequest .setPanel h (refusal .panelInUse) s

/-- SET_PANEL (R109). -/
def execSetPanel (s : State) : Host.Outcome State Fault Refusal :=
  whileHigh (runRequest .setPanel ownSetPanel) s

end Sys2Proof.Machine
end

