-- ==== Sys2Proof/Machine/EngineWork.lean ====
section
/-! DEFINITION. The engine's work that is not a request: placing a held answer (R82), lapse notices (R98, R99) and the
copy-end application (R87). -/

namespace Sys2Proof.Machine

/-- HELD_ANSWER_PLACEMENT (R82): a STALLED engine places its held answer when the Answer Queue has room, and an engine whose
held answer is placed goes on with the rest of its piece. The read that makes room has placed the answer already (R170;
log 13). -/
def execHeldAnswerPlacement (s : State) : Host.Outcome State Fault Refusal :=
  whileHigh (fun s => goOn (placeHeld s)) s

/-- The lapse of an ACTIVE or PUBLISHING client, whose notice has left the set: steps 2 to 5 of R98. -/
def lapseClient (k : ClientId) (s : State) : State :=
  let ptag := if (s.client k).parkedEntry then parkedPublishTag k s else none
  let t := (discardStaging k (if (s.client k).parkedEntry then removePublish k s else s)).updClient k
    fun c => { c with state := .lapsed }
  match ptag with
  | some tag => placeLast (cancelledAnswer k tag .lapse) t
  | none => finishPiece t

/-- The engine takes the notice of client `k` (R98, R99). -/
def takeNotice (k : ClientId) (s : State) : State :=
  let t := { s with lapsePending := s.lapsePending.filter fun j => decide (j ≠ k) }
  match (s.client k).state with
  | .active | .publishing => lapseClient k t
  | .closed | .lapsed | .closing => finishPiece t

/-- The engine takes the lowest-numbered notice in the Lapse Pending Set when it is FREE and no copy-end application is due
(R77, R97). -/
def takeLowestNotice (s : State) : State :=
  if engineOpen s then
    match (settleLease s).lapsePending with
    | k :: _ => takeNotice k { settleLease s with engine := .working .finish }
    | [] => s
  else s

/-- LAPSE_NOTICE (R98). -/
def execLapseNotice (s : State) : Host.Outcome State Fault Refusal :=
  whileHigh takeLowestNotice s

/-- The engine takes the copy-end application when it is FREE and one is due (R77, R86), and begins with the first entry; an
engine WORKING on the application applies the next (log 8). -/
def takeApplication (s : State) : State :=
  if s.engine = .free ∧ s.copyEndDue then applyNext { settleLease s with engine := .working .application }
  else if s.engine = .working .application then applyNext s
  else s

/-- COPY_END_APPLICATION (R87). -/
def execCopyEndApplication (s : State) : Host.Outcome State Fault Refusal :=
  whileHigh takeApplication s

end Sys2Proof.Machine
end

