-- ==== Sys2Proof/Machine/HostPort.lean ====
section
/-! DEFINITION. The transactions of the Request Port (R164 to R177). -/

namespace Sys2Proof.Machine

/-- A complete message joins the Request Queue, or is discarded whole with REQUEST_OVERRUN set when the queue is full
(R167). -/
def admitMessage (m : List Word) (s : State) : State :=
  if s.requests.length < Config.requestQueueSize then { s with requests := s.requests ++ [m] } else s.setRequestOverrun

/-- A word joins the assembly; when the message has its announced length it is complete, the assembly becomes empty and
admission follows (R165, R166). -/
def assembleWord (w : Word) (s : State) : State :=
  let length := if s.assembly.words.isEmpty then announcedLength w else s.assembly.length
  let words := s.assembly.words ++ [w]
  if words.length < length then { s with assembly := { words := words, length := length } }
  else admitMessage words { s with assembly := { words := [], length := 0 } }

/-- A word is written to REQUEST (R165, R166). After a write the port drives no word (R164). -/
def writeRequest (w : Word) (s : State) : State :=
  assembleWord w { s with rqData := none }

/-- REQUEST_WORD_WRITE (R165, R166). -/
def execRequestWordWrite (w : Word) (s : State) : Host.Outcome State Fault Refusal :=
  whileHigh (writeRequest w) s

/-- The word a read of ANSWER returns: the next unread word of the head answer (R170), or 0 when no answer waits (R171). -/
def answerReadWord (s : State) : Word :=
  match s.answers with
  | [] => 0
  | a :: _ => (answerWords a).getD s.answerRead 0

/-- The head answer's read count advances by 1; the read of its last word removes it, and at this removal a STALLED engine
places the answer it holds (R170, R82). A read of an empty queue changes neither (R171). -/
def advanceAnswerRead (s : State) : State :=
  match s.answers with
  | [] => s
  | a :: rest =>
    if s.answerRead + 1 < answerLength a then { s with answerRead := s.answerRead + 1 }
    else placeHeld { s with answers := rest, answerRead := 0 }

/-- A word is read from ANSWER (R170, R171). -/
def readAnswer (s : State) : State :=
  { advanceAnswerRead s with rqData := some (answerReadWord s), lastReadEmpty := s.answers.isEmpty }

/-- ANSWER_READ (R170, R171). -/
def execAnswerRead (s : State) : Host.Outcome State Fault Refusal :=
  whileHigh readAnswer s

/-- The word driven on RQ_D after an edge that changes nothing else: 0 for a read of REQUEST, the enable mask for a read of
ENABLE, and no word after a write to ANSWER or an edge without a transaction (R164). -/
def quietWord (access : QuietAccess) (s : State) : Option Word :=
  match access with
  | .answerWrite _ | .noTransaction => none
  | .requestRead => some 0
  | .enableRead => some (enableWord s.enables)

/-- An edge of RQ_CLK that changes no state of the port but what it drives (R164). -/
def quietEdge (access : QuietAccess) (s : State) : State :=
  { s with rqData := quietWord access s }

/-- ANSWER_WINDOW_WRITE (R164): a write to ANSWER, and the other edges without effect (log 11). -/
def execAnswerWindowWrite (access : QuietAccess) (s : State) : Host.Outcome State Fault Refusal :=
  whileHigh (quietEdge access) s

/-- A word is read from STATUS (R172): at position 0 a snapshot is taken and its first word returned; at position 1 the second
word of the same snapshot is returned. -/
def readStatus (s : State) : State :=
  match s.statusHeld with
  | none => { s with statusHeld := some (statusSnapshot s), rqData := some (statusFirstWord (statusSnapshot s)) }
  | some t => { s with statusHeld := none, rqData := some (statusSecondWord t) }

/-- STATUS_READ (R172). -/
def execStatusRead (s : State) : Host.Outcome State Fault Refusal :=
  whileHigh readStatus s

/-- A write to STATUS: each flag whose bit is 1 is cleared (R174), the assembly is emptied if the abandon bit is 1 (R168),
and the status read position becomes 0 (R172). -/
def statusWrite (w : Word) (s : State) : State :=
  { s with
    flags := clearFlags s.flags w
    assembly := if w.getLsbD 15 then { words := [], length := 0 } else s.assembly
    statusHeld := none
    rqData := none }

/-- EVENT_FLAG_CLEAR (R174): a STATUS write (log 12). -/
def execEventFlagClear (w : Word) (s : State) : Host.Outcome State Fault Refusal :=
  whileHigh (statusWrite w) s

/-- ASSEMBLY_ABANDON (R168): a STATUS write whose abandon bit is 1 (log 12). -/
def execAssemblyAbandon (w : Word) (s : State) : Host.Outcome State Fault Refusal :=
  whileHigh (statusWrite w) s

/-- The whole enable mask is replaced (R176). -/
def writeEnables (w : Word) (s : State) : State :=
  { s with enables := enableMaskOf w, rqData := none }

/-- ENABLE_WRITE (R176). -/
def execEnableWrite (w : Word) (s : State) : Host.Outcome State Fault Refusal :=
  whileHigh (writeEnables w) s

/-! ### The pins -/

/-- The levels of the pins of the Request Port at a rising edge of RQ_CLK (R164): RQ_CS, RQ_WR, RQ_RD, RQ_A, and the word a
host write has on RQ_D. -/
structure RequestPins where
  cs : Bool
  wr : Bool
  rd : Bool
  a : BitVec 2
  d : Word
  deriving DecidableEq, Repr

/-- The command that an edge of RQ_CLK is (R164). A write to STATUS has two rows of the table (log 12), and the edges without
effect share one (log 11). -/
def edgeCommand (p : RequestPins) : Instr :=
  if p.cs && p.wr && !p.rd then
    match p.a.toNat with
    | 0 => .requestWordWrite p.d
    | 1 => .answerWindowWrite (.answerWrite p.d)
    | 2 => if p.d.getLsbD 15 then .assemblyAbandon p.d else .eventFlagClear p.d
    | _ => .enableWrite p.d
  else if p.cs && p.rd && !p.wr then
    match p.a.toNat with
    | 0 => .answerWindowWrite .requestRead
    | 1 => .answerRead
    | 2 => .statusRead
    | _ => .answerWindowWrite .enableRead
  else .answerWindowWrite .noTransaction

end Sys2Proof.Machine
end

