-- ==== Sys2Proof/Machine/Lease.lean ====
section
/-! DEFINITION. The events of the Lease Monitor (R92 to R97). A message command acts when the oldest message handed over
by the engine is of its kind. Loads and stops are taken within the engine's own piece, so in a run only a reload claim is
ever found waiting (log 5). -/

namespace Sys2Proof.Machine

/-- The Lease Monitor takes the oldest message handed over, if it is a reload claim (R95). -/
def claimWaiting (s : State) : State :=
  match s.leaseInbox with
  | .claim k :: rest => takeClaim k { s with leaseInbox := rest }
  | _ => s

/-- The Lease Monitor takes the oldest message handed over, if it is a load (R93). -/
def loadWaiting (s : State) : State :=
  match s.leaseInbox with
  | .load k p :: rest => takeLoad k p { s with leaseInbox := rest }
  | _ => s

/-- The Lease Monitor takes the oldest message handed over, if it is a stop (R96). -/
def stopWaiting (s : State) : State :=
  match s.leaseInbox with
  | .stop k :: rest => takeStop k { s with leaseInbox := rest }
  | _ => s

/-- RELOAD_CLAIM (R95). -/
def execReloadClaim (s : State) : Host.Outcome State Fault Refusal :=
  whileHigh claimWaiting s

/-- LEASE_LOAD (R93). -/
def execLeaseLoad (s : State) : Host.Outcome State Fault Refusal :=
  whileHigh loadWaiting s

/-- LEASE_STOP (R96). -/
def execLeaseStop (s : State) : Host.Outcome State Fault Refusal :=
  whileHigh stopWaiting s

/-- LEASE_FRAME_START (R94): the whole of the Lease Monitor's work at a FRAME_START, the stops, the joining of the Lapse
Pending Set and LEASE_LAPSE included, which R94 puts at the decrement (log 6). -/
def execLeaseFrameStart (s : State) : Host.Outcome State Fault Refusal :=
  whileHigh countDown s

/-- LEASE_EXPIRY (R94): a RUNNING counter at 0 stops, its client joins the Lapse Pending Set, LEASE_LAPSE is set. The decrement
leaves no such counter, so after it nothing is left to do (R92; log 6). -/
def execLeaseExpiry (s : State) : Host.Outcome State Fault Refusal :=
  whileHigh expireCounters s

end Sys2Proof.Machine
end

