-- ==== Sys2Proof/Machine/Lookup.lean ====
section
/-! DEFINITION. The Lookup Port and the Lookup Engine (R149 to R163). -/

namespace Sys2Proof.Machine

/-- A two-byte value of a point message, high byte first (R184). -/
def byteValue (hi lo : Byte) : Nat :=
  hi.toNat * 256 + lo.toNat

/-- The point of five bytes, stamped with the frame and line counters (R150, R151, R184). -/
def pointOf (bytes : List Byte) (s : State) : Point :=
  { touchId := (bytes.getD 0 0).toNat % 16
    x := byteValue (bytes.getD 1 0) (bytes.getD 2 0)
    y := byteValue (bytes.getD 3 0) (bytes.getD 4 0)
    captureFrame := s.frameCounter
    captureLine := s.lineCounter }

/-- A complete point joins the Point Queue, or is dropped with LOOKUP_OVERRUN set when the queue is full (R151). -/
def completePoint (p : Point) (s : State) : State :=
  if s.points.length < Config.pointQueueSize then { s with points := s.points ++ [p] } else s.setLookupOverrun

/-- A byte joins the assembly (R150); the fifth completes the point and empties the assembly (R151). At an edge at which LK_SEL
is low the port takes no write (R149). -/
def writePointByte (b : Byte) (s : State) : State :=
  let bytes := s.pointBytes ++ [b]
  if !s.lkSel then s
  else if bytes.length < Config.pointBytes then { s with pointBytes := bytes }
  else completePoint (pointOf bytes s) { s with pointBytes := [] }

/-- POINT_BYTE_WRITE (R150). -/
def execPointByteWrite (b : Byte) (s : State) : Host.Outcome State Fault Refusal :=
  whileHigh (writePointByte b) s

/-- LK_SEL_FALL: LK_SEL is low and a partly written point is discarded (R150); with `level` high LK_SEL rises, which changes no
state of the port (log 16). The pin moves whether or not RESET is low. -/
def execLkSelFall (s : State) (level : PinLevel := .low) : Host.Outcome State Fault Refusal :=
  match level with
  | .low => .next { s with lkSel := false, pointBytes := [] }
  | .high => .next { s with lkSel := true }

/-- The byte a byte read would take: the byte of the head answer at the read position (R161), or 255 when no answer waits
(R162). -/
def lookupByte (s : State) : Byte :=
  match s.lookupAnswers with
  | [] => Config.lookupFiller
  | a :: _ => (lookupAnswerBytes a).getD s.lookupRead 0

/-- LK_DO, driven while LK_SEL is high (R149). -/
def lkDo (s : State) : Option Byte :=
  if s.lkSel then some (lookupByte s) else none

/-- The read position advances by 1; the read of the last byte removes the head answer (R161). -/
def advanceLookupRead (s : State) : State :=
  match s.lookupAnswers with
  | [] => s
  | a :: rest =>
    if s.lookupRead + 1 < (lookupAnswerBytes a).length then { s with lookupRead := s.lookupRead + 1 }
    else { s with lookupAnswers := rest, lookupRead := 0 }

/-- A byte read (R161, R162). At an edge at which LK_SEL is low the port takes no read (R149). -/
def readLookupByte (s : State) : State :=
  if s.lkSel then { advanceLookupRead s with lkByte := some (lookupByte s) } else s

/-- LOOKUP_ANSWER_READ (R161, R162). -/
def execLookupAnswerRead (s : State) : Host.Outcome State Fault Refusal :=
  whileHigh readLookupByte s

/-! ### The Lookup Engine -/

/-- An IDLE engine takes the oldest point when the Lookup Answer Queue has room (R153), and pins the SHOWING list (R113). -/
def takePoint (s : State) : State :=
  match s.lookup, s.points with
  | .idle, p :: rest =>
    if s.lookupAnswers.length < Config.lookupAnswerQueueSize then
      { s.updScanList s.showing (fun l => { l with pinCount := 1 }) with
        points := rest, lookup := .looking p s.showing }
    else s
  | _, _ => s

/-- LOOKUP_TAKE (R153). -/
def execLookupTake (s : State) : Host.Outcome State Fault Refusal :=
  whileHigh takePoint s

/-- The result for a covering entry (R157, R158). -/
def entryResult (e : Entry) (x y : Nat) : LookupResult :=
  match e.touch with
  | .absorbs => .absorbed e.id e.owner
  | .accepts =>
    .hit { id := e.id, owner := e.owner, localX := x - e.geometry.x, localY := y - e.geometry.y, plane := e.source.plane
           sourceColumn := sourceColumn e.geometry e.source x, sourceRow := sourceRow e.geometry e.source y }

/-- The result of a lookup against a list: OUTSIDE (R155), or the first covering entry in list order (R156 to R158), or
BACKGROUND. -/
def lookupResult (l : ScanList) (x y : Nat) : LookupResult :=
  if l.panel.unconfigured ∨ l.panel.width ≤ x ∨ l.panel.height ≤ y then .outside
  else
    match l.entries.find? fun e => e.geometry.covers x y with
    | none => .background
    | some e => entryResult e x y

/-- The answer to a point against a list (R159). -/
def lookupAnswer (p : Point) (l : ScanList) : LookupAnswer :=
  { touchId := p.touchId, result := lookupResult l p.x p.y, captureFrame := p.captureFrame
    captureLine := p.captureLine, listTag := l.tag }

/-- The answer is placed and the pin released, and the engine becomes IDLE (R154). -/
def completeLookup (s : State) : State :=
  match s.lookup with
  | .idle => s
  | .looking p list =>
    { s.updScanList list (fun l => { l with pinCount := 0 }) with
      lookupAnswers := s.lookupAnswers ++ [lookupAnswer p (s.scanList list)], lookup := .idle }

/-- LOOKUP_COMPLETE (R154). -/
def execLookupComplete (s : State) : Host.Outcome State Fault Refusal :=
  whileHigh completeLookup s

end Sys2Proof.Machine
end

