-- ==== Sys2Proof/Machine/Spans.lean ====
section
/-! DEFINITION. The derivation of a line's span list from a scan list (R130 to R137), with no state. -/

namespace Sys2Proof.Machine

/-- Whether a scan list entry covers a pixel (R130). -/
def Entry.covers (e : Entry) (px py : Nat) : Bool :=
  e.geometry.covers px py

/-- What R132 compares from pixel to pixel: the owner, BACKGROUND when absent, and the underlay: absent, or BACKGROUND
(`some none`), or an entry. -/
structure Pixel where
  owner : Option Entry
  underlay : Option (Option Entry)
  deriving DecidableEq, Repr

/-- The pixel with BACKGROUND as owner. -/
def backgroundPixel : Pixel :=
  { owner := none, underlay := none }

/-- The owner of pixel (p, n), the first entry that covers it (R130); for a KEYED owner, the underlay: the first OPAQUE
entry after it that covers the pixel, or BACKGROUND (R131). -/
def pixelAt (entries : List Entry) (p n : Nat) : Pixel :=
  match entries with
  | [] => backgroundPixel
  | e :: rest =>
    if e.covers p n then
      { owner := some e
        underlay :=
          if e.opacity = .keyed then some (rest.find? fun u => u.covers p n && decide (u.opacity = .solid)) else none }
    else pixelAt rest p n

/-- A run of consecutive pixels with the same owner and the same underlay (R132). -/
structure Run where
  startX : Nat
  length : Nat
  pixel : Pixel
  deriving DecidableEq, Repr

/-- The maximal runs of a row of pixels, the first of which is pixel `x` (R132). -/
def runsFrom (x : Nat) : List Pixel → List Run
  | [] => []
  | p :: ps =>
    match runsFrom (x + 1) ps with
    | [] => [{ startX := x, length := 1, pixel := p }]
    | r :: rs =>
      if r.pixel = p then { startX := x, length := r.length + 1, pixel := p } :: rs
      else { startX := x, length := 1, pixel := p } :: r :: rs

/-- The full span list of line `n` of a list, as runs (R132). -/
def fullRuns (l : ScanList) (n : Nat) : List Run :=
  runsFrom 0 ((List.range l.panel.width).map fun p => pixelAt l.entries p n)

/-! ### Overflow -/

/-- Whether a run is a protected span: its owner is a GUARDED entry (R135). -/
def protectedRun (r : Run) : Bool :=
  r.pixel.owner.any fun e => decide (e.band = .guarded)

/-- The runs of an overflow line, grouped: a protected span, or a stretch of candidate spans (R136). -/
inductive Segment where
  | protectedSpan (r : Run)
  | stretch (candidates : List Run)
  deriving DecidableEq, Repr

/-- Grouping the runs of a line into protected spans and stretches (R136). -/
def segments : List Run → List Segment
  | [] => []
  | r :: rs =>
    if protectedRun r then .protectedSpan r :: segments rs
    else
      match segments rs with
      | .stretch c :: rest => .stretch (r :: c) :: rest
      | rest => .stretch [r] :: rest

/-- The number of stretches among segments. -/
def stretchCount (l : List Segment) : Nat :=
  (l.filter fun g => match g with | .stretch _ => true | _ => false).length

/-- The BACKGROUND span that covers every pixel of the candidates not kept, from the first one's start (R137). -/
def fillerRun (dropped : List Run) : Run :=
  { startX := (dropped.head?.map (·.startX)).getD 0, length := (dropped.map (·.length)).sum, pixel := backgroundPixel }

/-- Filling the stretches from left to right with the budget remaining (R137). -/
def fillSegments (budget : Nat) : List Segment → List Run
  | [] => []
  | .protectedSpan r :: rest => r :: fillSegments budget rest
  | .stretch c :: rest =>
    let room := budget - stretchCount rest
    if c.length ≤ room then c ++ fillSegments (budget - c.length) rest
    else c.take (room - 1) ++ fillerRun (c.drop (room - 1)) :: fillSegments (budget - room) rest

/-- The span list of an overflow line: the protected spans, and the stretches filled within a budget of 32 less their
number (R136). -/
def reducedRuns (full : List Run) : List Run :=
  fillSegments (Config.spanLimit - (full.filter protectedRun).length) (segments full)

/-- Whether a full span list makes an overflow line (R136). -/
def overflowing (full : List Run) : Bool :=
  decide (Config.spanLimit < full.length)

/-- A line's span list, as runs: the full list when it holds 32 or fewer, reduced otherwise (R132, R136). -/
def lineRuns (l : ScanList) (n : Nat) : List Run :=
  if overflowing (fullRuns l n) then reducedRuns (fullRuns l n) else fullRuns l n

/-! ### Spans -/

/-- The underlay part's fields for an entry, at pixel (p, n) (R134). -/
def underlaySource (e : Entry) (p n : Nat) : UnderlaySource :=
  { id := e.id, plane := e.source.plane, startColumn := sourceColumn e.geometry e.source p
    row := sourceRow e.geometry e.source n, wrapWidth := e.source.wrapWidth }

/-- The span of a run of line `n` (R133, R134). -/
def spanOfRun (n : Nat) (r : Run) : Span :=
  { startX := r.startX
    length := r.length
    content := r.pixel.owner.map fun e =>
      { id := e.id, owner := e.owner, plane := e.source.plane
        startColumn := sourceColumn e.geometry e.source r.startX
        row := sourceRow e.geometry e.source n
        wrapWidth := e.source.wrapWidth
        underlay := r.pixel.underlay.map fun u => u.map fun f => underlaySource f r.startX n } }

/-- The finished line built from a list (R139). -/
def buildLine (l : ScanList) (n : Nat) : Line :=
  { number := n, tag := l.tag, overflow := overflowing (fullRuns l n), spans := (lineRuns l n).map (spanOfRun n) }

/-- The items of a span: a SPAN, and an UNDERLAY directly after it when it has an underlay part (R144). -/
def spanItems (sp : Span) : List SpanItem :=
  match sp.content.bind (·.underlay) with
  | some u => [.span sp, .underlay u]
  | none => [.span sp]

/-- The LINE_HEAD of a line (R144). -/
def lineHeadOf (l : Line) : SpanItem :=
  .lineHead l.number l.tag l.spans.length l.overflow

end Sys2Proof.Machine
end

