-- ==== Sys2Proof/Machine/SpanPath.lean ====
section
/-! DEFINITION. The events of the span path: LINE_START (R105, R122, R123, R127, R128, R140), BUILD_COMPLETE (R139, R141,
R142) and SPAN_WORD_ACCEPTED (R143 to R145). -/

namespace Sys2Proof.Machine

/-! ### LINE_START -/

/-- The Timing Input numbers a line and advances the line counter, which stays at 4095 (R105). -/
def countLine (s : State) : State :=
  { s with lineCounter := min (s.lineCounter + 1) Config.lastLine }

/-- A build in flight when a line arrives is abandoned, and LINE_DROPPED is set (R127 step 1, R140). -/
def abandonBuild (s : State) : State :=
  match s.builder with
  | .idle => s
  | .building _ _ => { s.setLineDropped with builder := .idle }

/-- The promotion request of a line 0 (R127 step 2): a READY list becomes SHOWING and the unit IDLE (R122); with the unit
WAITING or COPYING, SNAPSHOT_LATE is set and nothing is promoted (R123); with the unit IDLE nothing happens. -/
def requestPromotion (s : State) : State :=
  match s.snapState with
  | .ready => { s with showing := s.filling, snapState := .idle }
  | .waiting | .copying _ => s.setSnapshotLate
  | .idle => s

/-- Whether line `n` of a list is produced (R128). -/
def lineProduced (l : ScanList) (n : Nat) : Bool :=
  !l.panel.unconfigured && decide (n < l.panel.height)

/-- The builder takes the SHOWING list for line `n` and begins the build if the line is produced (R127 steps 3 and 4). -/
def beginBuild (n : Nat) (s : State) : State :=
  { s with builder := if lineProduced (s.scanList s.showing) n then .building n s.showing else .idle }

/-- A LINE_START is numbered and goes to the Span Builder (R105, R127). -/
def takeLine (s : State) : State :=
  let n := s.lineCounter
  let t := abandonBuild (countLine s)
  beginBuild n (if n = 0 then requestPromotion t else t)

/-- LINE_START (R105, R127). -/
def execLineStart (s : State) : Host.Outcome State Fault Refusal :=
  whileHigh takeLine s

/-! ### The output port -/

/-- SP_VALID (R143), held low while RESET is low (R147). -/
def spValid (s : State) : Bool :=
  !s.resetLow &&
    match s.spanPort with
    | .idle => false
    | .sending _ | .aborting _ => true

/-- The word of a place. -/
def placeWord (p : SpanPlace) : SpanWord :=
  (itemWords p.item).getD p.sent 0

/-- SP_D while SP_VALID is high: the word on offer (R143). -/
def spData (s : State) : Option SpanWord :=
  if spValid s then
    match s.spanPort with
    | .idle => none
    | .sending p | .aborting p => some (placeWord p)
  else none

/-- The place of a port that begins a line: the first word of its LINE_HEAD (R143, R144). -/
def linePlace (l : Line) : SpanPlace :=
  { item := lineHeadOf l, sent := 0, later := l.spans.flatMap spanItems }

/-- The port begins the queue's older line if there is one, and is IDLE otherwise (R143). -/
def beginLine (s : State) : State :=
  match s.spanQueue with
  | [] => { s with spanPort := .idle }
  | l :: _ => { s with spanPort := .sending (linePlace l) }

/-- The place after the word on offer is accepted, when the item in hand or a later one has a word left. -/
def nextPlace (p : SpanPlace) : Option SpanPlace :=
  if p.sent + 1 < (itemWords p.item).length then some { p with sent := p.sent + 1 }
  else
    match p.later with
    | [] => none
    | i :: rest => some { item := i, sent := 0, later := rest }

/-- The word on offer is accepted (R143): the next word is offered; after the last word of a line that line leaves the queue,
and after a LINE_ABORT or a line the port begins the older line or becomes IDLE. No word passes while SP_VALID is low. -/
def acceptWord (s : State) : State :=
  match s.spanPort with
  | .idle => s
  | .sending p =>
    match nextPlace p with
    | some q => { s with spanPort := .sending q }
    | none => beginLine { s with spanQueue := s.spanQueue.tail }
  | .aborting p =>
    match nextPlace p with
    | some q => { s with spanPort := .aborting q }
    | none => beginLine s

/-- SPAN_WORD_ACCEPTED (R143). -/
def execSpanWordAccepted (s : State) : Host.Outcome State Fault Refusal :=
  whileHigh acceptWord s

/-! ### BUILD_COMPLETE -/

/-- A line that was begun is discarded: the port finishes the item in hand and then sends LINE_ABORT; the items not begun
are not sent (R142, R145). A line not begun is removed without a word (R142). -/
def abortLine (l : Line) : SpanPort → SpanPort
  | .sending p => .aborting { p with later := [.lineAbort l.number l.tag] }
  | port => port

/-- The older line is discarded and LINE_DROPPED is set (R142). -/
def discardOlder (s : State) : State :=
  match s.spanQueue with
  | [] => s
  | l :: rest => { s.setLineDropped with spanQueue := rest, spanPort := abortLine l s.spanPort }

/-- A finished line joins the Span Queue, the older line leaving a full queue first (R141, R142); an IDLE port begins the
older line (R143). -/
def queueLine (l : Line) (s : State) : State :=
  let t := if s.spanQueue.length < Config.spanQueueSize then s else discardOlder s
  let u := { t with spanQueue := t.spanQueue ++ [l] }
  match u.spanPort with
  | .idle => beginLine u
  | _ => u

/-- The line in flight is finished and placed in the Span Queue, the builder becomes IDLE (R139), and an overflow line sets
SPAN_OVERFLOW (R138). -/
def completeBuild (s : State) : State :=
  match s.builder with
  | .idle => s
  | .building n list =>
    let l := buildLine (s.scanList list) n
    let t := { s with builder := .idle }
    queueLine l (if l.overflow then t.setSpanOverflow else t)

/-- BUILD_COMPLETE (R139). -/
def execBuildComplete (s : State) : Host.Outcome State Fault Refusal :=
  whileHigh completeBuild s

end Sys2Proof.Machine
end

