-- ==== Sys2Proof/Machine/Timing.lean ====
section
/-! DEFINITION. FRAME_START at the Timing Input (R104) and the Snapshot Unit (R114 to R121, R126). -/

namespace Sys2Proof.Machine

/-- DEVICE_RESET: every block takes its reset values, and work in flight is abandoned (R20, R38, R52, R91, R103, R126,
R148, R163, R178). With `level` low RESET stays low, and no block takes anything until a DEVICE_RESET with `level` high (R106,
R147, R163, R178; log 10). The queue of commands is outside the part (log 4), and LK_SEL is an input pin (log 16). -/
def execDeviceReset (s : State) (level : PinLevel := .high) : Host.Outcome State Fault Refusal :=
  .next { State.reset with pending := s.pending, lkSel := s.lkSel, resetLow := decide (level = .low) }

/-- The frame counter increases by 1, modulo 65536, and the line counter becomes 0 (R104). -/
def countFrame (s : State) : State :=
  { s with frameCounter := s.frameCounter + 1, lineCounter := 0 }

/-- FRAME_START (R104). -/
def execFrameStart (s : State) : Host.Outcome State Fault Refusal :=
  whileHigh countFrame s

/-- The entries of a list are removed (R116, R117). -/
def dropEntries (l : ScanList) : ScanList :=
  { l with entries := [] }

/-- The Snapshot Unit takes a FRAME_START: F advances and the unit becomes WAITING (R115); a copy in progress is abandoned,
which is a copy end (R116, R86); a READY list is discarded (R117). -/
def advanceSnapshot (s : State) : State :=
  let t := { s with snapFrame := s.snapFrame + 1, snapState := .waiting }
  match s.snapState with
  | .idle | .waiting => t
  | .copying _ => { t.updScanList s.filling dropEntries with copyEndDue := true }
  | .ready => t.updScanList s.filling dropEntries

/-- SNAPSHOT_FRAME_START (R115). -/
def execSnapshotFrameStart (s : State) : Host.Outcome State Fault Refusal :=
  whileHigh advanceSnapshot s

/-- The numbers of the clients that are not LAPSED (R100, R119). A CLOSING client is among them (R34, R120), where a sentence
beside R40 leaves it out; no copy starts while a client is CLOSING, and one that becomes CLOSING during a copy stays in it by
R121 (log 24). -/
def visibleClients (s : State) : List ClientId :=
  clientsWhere fun k => decide ((s.client k).state ≠ .lapsed)

/-- Whether a copy starts: the unit is WAITING, no copy-end application is due, no committed work is being applied, and
the FILLING list is not pinned (R118). -/
def copyMayStart (s : State) : Bool :=
  decide (s.snapState = .waiting) && !s.copyEndDue && !s.committedWork && decide ((s.scanList s.filling).pinCount = 0)

/-- When a copy may start, the unit latches the frame tag, the panel size and the visible-client set, and becomes COPYING; the
FILLING list has no entry written yet (R118, R119, R112). -/
def startCopy (s : State) : State :=
  if copyMayStart s then
    { s.updScanList s.filling (fun l => { l with tag := s.snapFrame, panel := s.panel, entries := [] }) with
      snapState := .copying { visible := visibleClients s, panel := s.panel } }
  else s

/-- COPY_START (R118). -/
def execCopyStart (s : State) : Host.Outcome State Fault Refusal :=
  whileHigh startCopy s

/-- The entry a region contributes to a copy: a LIVE region whose committed visible field is YES and whose owner is in
the latched set (R111, R120). -/
def scanEntry (visible : List ClientId) (s : State) (i : RegionId) : Option Entry :=
  match s.region i with
  | .live g =>
    if g.committed.appearance.visible ∧ g.owner ∈ visible then
      some { id := i, owner := g.owner, band := g.band, geometry := g.committed.geometry, source := g.committed.source,
             opacity := g.committed.appearance.opacity, touch := g.committed.appearance.touch }
    else none
  | _ => none

/-- The walk of the copy: the GUARDED list, then the ELEVATED list, then the ORDINARY list, top to bottom (R40, R120). -/
def copyEntries (visible : List ClientId) (s : State) : List Entry :=
  (s.bands.guarded ++ s.bands.elevated ++ s.bands.ordinary).filterMap (scanEntry visible s)

/-- The FILLING list holds the complete copy, the unit becomes READY, and a copy-end application falls due (R121, R86). The
tables stand as at the copy start (R121; log 14). -/
def completeCopy (s : State) : State :=
  match s.snapState with
  | .copying latch =>
    { s.updScanList s.filling (fun l => { l with entries := copyEntries latch.visible s }) with
      snapState := .ready, copyEndDue := true }
  | _ => s

/-- COPY_COMPLETE (R121). -/
def execCopyComplete (s : State) : Host.Outcome State Fault Refusal :=
  whileHigh completeCopy s

end Sys2Proof.Machine
end

