-- ==== Sys2Proof/Machine/Dispatch.lean ====
section
/-! DEFINITION. The effect of each command on everything but the queue of commands: one arm per row of
spec/opcode_table.json, each a call of the command's own meaning. -/

namespace Sys2Proof.Machine

def exec (i : Instr) (s : State) : Host.Outcome State Fault Refusal :=
  match i with
  | .deviceReset level => Sys2Proof.Machine.execDeviceReset s level
  | .requestWordWrite w => Sys2Proof.Machine.execRequestWordWrite w s
  | .answerRead => Sys2Proof.Machine.execAnswerRead s
  | .answerWindowWrite access => Sys2Proof.Machine.execAnswerWindowWrite access s
  | .statusRead => Sys2Proof.Machine.execStatusRead s
  | .eventFlagClear w => Sys2Proof.Machine.execEventFlagClear w s
  | .assemblyAbandon w => Sys2Proof.Machine.execAssemblyAbandon w s
  | .enableWrite w => Sys2Proof.Machine.execEnableWrite w s
  | .malformedMessage => Sys2Proof.Machine.execMalformedMessage s
  | .create => Sys2Proof.Machine.execCreate s
  | .edit => Sys2Proof.Machine.execEdit s
  | .retire => Sys2Proof.Machine.execRetire s
  | .restack => Sys2Proof.Machine.execRestack s
  | .discard => Sys2Proof.Machine.execDiscard s
  | .publish => Sys2Proof.Machine.execPublish s
  | .renew => Sys2Proof.Machine.execRenew s
  | .queryRegion => Sys2Proof.Machine.execQueryRegion s
  | .queryClient race => Sys2Proof.Machine.execQueryClient race s
  | .resume race => Sys2Proof.Machine.execResume s race
  | .openClient race => Sys2Proof.Machine.execOpenClient s race
  | .closeClient race => Sys2Proof.Machine.execCloseClient s race
  | .clearAll race => Sys2Proof.Machine.execClearAll s race
  | .setPanel => Sys2Proof.Machine.execSetPanel s
  | .heldAnswerPlacement => Sys2Proof.Machine.execHeldAnswerPlacement s
  | .lapseNotice => Sys2Proof.Machine.execLapseNotice s
  | .copyEndApplication => Sys2Proof.Machine.execCopyEndApplication s
  | .reloadClaim => Sys2Proof.Machine.execReloadClaim s
  | .leaseLoad => Sys2Proof.Machine.execLeaseLoad s
  | .leaseStop => Sys2Proof.Machine.execLeaseStop s
  | .leaseFrameStart => Sys2Proof.Machine.execLeaseFrameStart s
  | .leaseExpiry => Sys2Proof.Machine.execLeaseExpiry s
  | .frameStart => Sys2Proof.Machine.execFrameStart s
  | .snapshotFrameStart => Sys2Proof.Machine.execSnapshotFrameStart s
  | .copyStart => Sys2Proof.Machine.execCopyStart s
  | .copyComplete => Sys2Proof.Machine.execCopyComplete s
  | .lineStart => Sys2Proof.Machine.execLineStart s
  | .buildComplete => Sys2Proof.Machine.execBuildComplete s
  | .spanWordAccepted => Sys2Proof.Machine.execSpanWordAccepted s
  | .pointByteWrite b => Sys2Proof.Machine.execPointByteWrite b s
  | .lkSelFall level => Sys2Proof.Machine.execLkSelFall s level
  | .lookupAnswerRead => Sys2Proof.Machine.execLookupAnswerRead s
  | .lookupTake => Sys2Proof.Machine.execLookupTake s
  | .lookupComplete => Sys2Proof.Machine.execLookupComplete s

end Sys2Proof.Machine
end

