-- ==== Sys2Proof/Safety.lean ====
section
/-! DEFINITION. The invariants of the part, each with the rules it comes from, and the views that statements compare. -/

namespace Sys2Proof.Machine

/-! ### Queues and counters -/

/-- The queues, assemblies, read positions and the line counter stay within their sizes (R82, R105, R141, R149, R152,
R161, R165, R166, R167, R169, R170). -/
structure QueueBounds (s : State) : Prop where
  requests : s.requests.length ≤ 16
  messages : ∀ m ∈ s.requests, 1 ≤ m.length ∧ m.length ≤ 16
  assembly : s.assembly.words = [] ∨ (s.assembly.words.length < s.assembly.length ∧ s.assembly.length ≤ 16)
  answers : s.answers.length ≤ 16
  answerRead : s.answerRead < (s.answers.head?.map answerLength).getD 1
  points : s.points.length ≤ 4
  pointBytes : s.pointBytes.length ≤ 4
  lookupAnswers : s.lookupAnswers.length ≤ 4
  lookupRoom : s.lookup ≠ .idle → s.lookupAnswers.length < 4
  lookupRead : s.lookupRead ≤ 17 ∧ (s.lookupAnswers = [] → s.lookupRead = 0)
  spanQueue : s.spanQueue.length ≤ 2
  lineCounter : s.lineCounter ≤ 4095

/-! ### The engine, the Parked List and the copy -/

/-- The target and the judgment of R83 of a close whose later steps wait, its CANCELLED answer being held or just placed
(R32). -/
def heldClose (s : State) : Option (ClientId × Bool) :=
  match s.engine with
  | .stalled _ (.closeTail k _ parks) | .working (.closeTail k _ parks) => some (k, parks)
  | _ => none

/-- Whether the engine is within a copy-end application, STALLED or WORKING (R82, R87). -/
def heldApplication (s : State) : Bool :=
  match s.engine with
  | .stalled _ .application | .working .application => true
  | _ => false

/-- The engine between commands, beside the Snapshot Unit (R76, R82, R83, R85, R86): it is WORKING only on the rest of a piece
(log 8), STALLED only while the Answer Queue is full, and no committed work is indicated; the Parked List is empty unless
the unit is COPYING or a copy-end application is due; an application in hand stays due; a close that waits will park; and no
application is due while the unit is COPYING. -/
structure EngineAtRest (s : State) : Prop where
  notWorking : s.engine ≠ .working .finish
  stalledFull : ∀ a r, s.engine = .stalled a r → 16 ≤ s.answers.length
  noCommittedWork : s.committedWork = false
  parkedWhen : s.parked ≠ [] → isCopying s = true ∨ s.copyEndDue = true
  closeWaits : ∀ k parks, heldClose s = some (k, parks) → parks = true ∧ (isCopying s = true ∨ s.copyEndDue = true)
  applicationDue : heldApplication s = true → s.copyEndDue = true
  copyNotDue : isCopying s = true → s.copyEndDue = false

/-- The committed part of a record: what the Snapshot Unit may read of it (R16, R120). -/
def committedRecord : Region → Option (ClientId × Band × Part × Frame)
  | .live g => some (g.owner, g.band, g.committed, g.changed)
  | _ => none

/-- Two states have the same committed table: the same LIVE records with the same committed parts and changed frames, and
the same band lists (R16). -/
def sameCommitted (s t : State) : Prop :=
  t.bands = s.bands ∧ ∀ i, committedRecord (t.region i) = committedRecord (s.region i)

/-! ### Scan lists and pins -/

/-- Pins (R113, R118): a list is pinned exactly while a lookup reads it, and the list that a copy writes, or that is READY,
is not pinned. -/
structure PinsHold (s : State) : Prop where
  none : s.lookup = .idle → s.listA.pinCount = 0 ∧ s.listB.pinCount = 0
  one : ∀ p n, s.lookup = .looking p n → (s.scanList n).pinCount = 1 ∧ (s.scanList (otherList n)).pinCount = 0
  target : (isCopying s = true ∨ s.snapState = .ready) → (s.scanList s.filling).pinCount = 0

/-! ### Clients -/

/-- The supervisor (R26, R97): client 0 is ACTIVE or PUBLISHING, of class GUARDED with quota 64 and lease period 0, its
counter never runs, it is never in the Lapse Pending Set, and no close names it. -/
structure SupervisorHolds (s : State) : Prop where
  state : (s.client 0).state = .active ∨ (s.client 0).state = .publishing
  terms : (s.client 0).terms = some { cls := .guarded, quota := 64, period := 0 }
  counter : s.counter 0 = { count := 0, running := false }
  notPending : (0 : ClientId) ∉ s.lapsePending
  noLoad : ∀ p, LeaseMsg.load 0 p ∉ s.leaseInbox
  noClose : ∀ tag, ParkedEntry.close 0 tag ∉ s.parked
  noHeldClose : ∀ parks, heldClose s ≠ some (0, parks)

/-- The client an entry of the Parked List belongs to (R21, R85). -/
def parkedOwner : ParkedEntry → Option ClientId
  | .publish k _ => some k
  | .close k _ => some k
  | .clearAll _ => none

/-- The Parked List beside the client records (R21, R35, R85): at most one entry per client, a CLEAR_ALL only as the last
entry, a client with a parked PUBLISH PUBLISHING with its flag YES, a client with a parked CLOSE CLOSING. While a close
waits on its CANCELLED answer its target has no entry and no CLEAR_ALL is parked. -/
structure ParkedListHolds (s : State) : Prop where
  onePerClient : (s.parked.filterMap parkedOwner).Nodup
  clearLast : ∀ tag, ParkedEntry.clearAll tag ∉ s.parked.dropLast
  publishing : ∀ k tag, ParkedEntry.publish k tag ∈ s.parked →
    (s.client k).state = .publishing ∧ (s.client k).parkedEntry = true
  closing : ∀ k tag, ParkedEntry.close k tag ∈ s.parked → (s.client k).state = .closing
  heldTarget : ∀ k parks, heldClose s = some (k, parks) →
    k ∉ s.parked.filterMap parkedOwner ∧ ∀ tag, ParkedEntry.clearAll tag ∉ s.parked

/-! ### Regions -/

/-- At most 4 regions of the GUARDED band are RESERVED or LIVE (R25). -/
def GuardedLimitHolds (s : State) : Prop :=
  guardedCount s ≤ 4

/-- No two GUARDED regions that have a committed part have overlapping rectangles (R66). -/
def GuardedDisjoint (s : State) : Prop :=
  ∀ i j : RegionId, i ≠ j → ∀ g h : LiveRegion, s.region i = .live g → s.region j = .live h →
    g.band = .guarded → h.band = .guarded → g.committed.geometry.overlaps h.committed.geometry = false

/-- Every LIVE region appears exactly once, in the band list of its own band, and no other region appears in any (R39). -/
def BandListsHold (s : State) : Prop :=
  ∀ b : Band, (s.bands.get b).Nodup ∧
    ∀ i : RegionId, i ∈ s.bands.get b ↔ isLive (s.region i) = true ∧ regionBand (s.region i) = some b

/-- Ownership (R2, R21, R24): the owned count of each client is the number of its RESERVED and LIVE records; a CLOSED
client owns none; a RESERVED record's owner is ACTIVE or PUBLISHING, and a close that waits has left its target none. -/
structure OwnershipHolds (s : State) : Prop where
  counts : ∀ k, (s.client k).owned = ownedRecords s k
  closedOwnsNone : ∀ i k, regionOwner (s.region i) = some k → (s.client k).state ≠ .closed
  reservedOpen : ∀ i k, isReservedOf k (s.region i) = true →
    (s.client k).state = .active ∨ (s.client k).state = .publishing
  heldNone : ∀ k parks, heldClose s = some (k, parks) → ∀ i, isReservedOf k (s.region i) = false

/-- Staging beside the client records. A LIVE record has a staged part only while its owner is ACTIVE or PUBLISHING (R2). The
creation orders of a client's RESERVED records are 1, 2, 3 and so on without gaps (R8): no two are equal and none exceeds
their number. The class, quota and lease period are absent exactly in CLOSED; the move list is empty in CLOSED, LAPSED and
CLOSING; the parked-entry flag is YES only with an entry (R21). A PUBLISHING client has an entry in the Parked List, or a
close that waits has just removed it; a CLOSING client has one (R31, R35). A close that waits has left its target no staged
part and no move (R31, R32), and PUBLISHING until its later steps (log 18). -/
structure StagingHolds (s : State) : Prop where
  stagedOpen : ∀ i k, isStagedOf k (s.region i) = true →
    (s.client k).state = .active ∨ (s.client k).state = .publishing
  orders : ∀ i r, s.region i = .reserved r →
    1 ≤ r.order ∧ r.order ≤ ((List.finRange 64).filter fun j => isReservedOf r.owner (s.region j)).length
  distinct : ∀ i j r q, s.region i = .reserved r → s.region j = .reserved q → r.owner = q.owner → r.order = q.order → i = j
  terms : ∀ k, (s.client k).terms = none ↔ (s.client k).state = .closed
  moves : ∀ k, (s.client k).state = .closed ∨ (s.client k).state = .lapsed ∨ (s.client k).state = .closing →
    (s.client k).moves = []
  flag : ∀ k, (s.client k).parkedEntry = true → k ∈ s.parked.filterMap parkedOwner
  publishing : ∀ k, (s.client k).state = .publishing →
    k ∈ s.parked.filterMap parkedOwner ∨ (heldClose s).map (·.1) = some k
  closing : ∀ k, (s.client k).state = .closing → k ∈ s.parked.filterMap parkedOwner
  heldOpen : ∀ k parks, heldClose s = some (k, parks) → (s.client k).state = .publishing
  heldDone : ∀ k parks, heldClose s = some (k, parks) →
    (∀ i, isStagedOf k (s.region i) = false) ∧ (s.client k).moves = []

/-- The agreement of the Parked List, the Region Table and the client records (R2, R8, R21, R24, R35, R85). -/
structure RecordsHold (s : State) : Prop where
  parked : ParkedListHolds s
  ownership : OwnershipHolds s
  staging : StagingHolds s

/-! ### Taking a request, as the statements say it -/

/-- The engine takes `m`, the oldest message, next, as a request of a kind (`none`: malformed), leaving `rest` in the
Request Queue: RESET is high (R178), it is FREE, no copy-end application is due and no lapse notice waits (R76, R77, R78). -/
structure Takes (s : State) (kind : Option RequestKind) (m : List Word) (rest : List (List Word)) : Prop where
  notReset : s.resetLow = false
  engineFree : s.engine = .free
  notDue : s.copyEndDue = false
  noNotice : (settleLease s).lapsePending = []
  oldest : s.requests = m :: rest
  ofKind : messageKind m = kind

/-- A request passes checks 2 to 5 of R78. -/
structure Passes (s : State) (kind : RequestKind) (h : Header) : Prop where
  isOpen : (s.client h.client).state ≠ .closed ∧ (s.client h.client).state ≠ .closing
  notLapsed : (s.client h.client).state = .lapsed → kind = .resume ∨ kind = .queryClient
  notPublishing : (s.client h.client).state = .publishing → stagingKind kind = false
  noClear : clearParked s = true → queryKind kind = true
  permitted : supervisorKind kind = true → h.client = 0

/-- The state with the oldest message taken; the Lease Monitor has taken what was handed to it before (log 5). -/
def taken (s : State) (rest : List (List Word)) : State :=
  { settleLease s with requests := rest }

/-- The state with a message taken that passed checks 1 to 3: its reload claim is handed over (R80). -/
def accepted (s : State) (rest : List (List Word)) (h : Header) : State :=
  { taken s rest with leaseInbox := [.claim h.client] }

/-- The last answer of a piece joins the Answer Queue and the engine is FREE, or, when the queue holds 16, a STALLED
engine holds it (R76, R82). -/
def placed (a : Answer) (s : State) : State :=
  if s.answers.length < 16 then { s with answers := s.answers ++ [a], engine := .free }
  else { s with engine := .stalled a .finish }

/-- An answer joins the Answer Queue and its piece goes on with `r`: the engine is FREE when nothing is left to do, a copy-end
application with no entry left lowering the copy-end indication, and WORKING on the rest otherwise (R76, R87). -/
def given (a : Answer) (r : Resume) (s : State) : State :=
  let done := r = .application ∧ s.parked = []
  { s with
    answers := s.answers ++ [a]
    engine := if r = .finish ∨ done then .free else .working r
    copyEndDue := if done then false else s.copyEndDue }

/-- An answer with what its piece has left to do: given, or, when the queue holds 16, held by a STALLED engine (R76, R82). -/
def answered (a : Answer) (r : Resume) (s : State) : State :=
  if s.answers.length < 16 then given a r s else { s with engine := .stalled a r }

/-- An answer to a request of kind number `kind` (R179, R181). -/
def replyTo (kind : Nat) (h : Header) (code : AnswerCode) (detail : Detail) (fields : AnswerFields) : Answer :=
  { kind := BitVec.ofNat 8 kind, header := some h, reply := { code := code, detail := detail, fields := fields } }

/-! ### What staging, leases and the Parked List leave, as the statements say it -/

/-- What discarding the staging of client `k` does to the tables (R60, R8, R14, R15, R48): its RESERVED records become
FREE, its LIVE records lose their staged parts, its move list is emptied, its owned count falls by the records freed, and
every move that names a freed record is dead. -/
def stagingDiscarded (k : ClientId) (s t : State) : Prop :=
  (∀ i, t.region i =
      match s.region i with
      | .reserved r => if r.owner = k then .free else .reserved r
      | .live r => if r.owner = k then .live { r with staged := none } else .live r
      | .free => .free)
    ∧ ∀ j,
      (t.client j).owned = (s.client j).owned
          - (if j = k then ((List.finRange 64).filter fun i => isReservedOf k (s.region i)).length else 0)
      ∧ (t.client j).moves = if j = k then [] else (s.client j).moves.map fun v =>
          { v with dead := v.dead || (placementReference v.placement).any fun r => isReservedOf k (s.region r) }

/-- A counter after one decrement: it falls by 1, and stops at 0 (R94). -/
def decremented (c : LeaseCounter) : LeaseCounter :=
  if c.running then (if c.count ≤ 1 then { count := 0, running := false } else { c with count := c.count - 1 }) else c

/-! ### Committed changes, as the statements say them -/

/-- The effective frame of a change applied now: F while the unit is WAITING, F + 1 otherwise (R72). -/
def frameOfChange (s : State) : Frame :=
  if s.snapState = .waiting then s.snapFrame else s.snapFrame + 1

/-- Two regions whose rectangles overlap in the set of the guard check of client `k`'s publish (R65). -/
def clash (k : ClientId) (s : State) (i j : RegionId) : Prop :=
  i ≠ j ∧ ∃ x y, guardRect k (s.region i) = some x ∧ guardRect k (s.region j) = some y ∧ x.overlaps y = true

/-- The two ids a GUARD_OVERLAP names: the lowest-numbered overlapping region and the lowest-numbered region that overlaps it
(R66). -/
def overlapNamed (k : ClientId) (s : State) (a b : RegionId) : Prop :=
  clash k s a b ∧ (∀ i j, i < a → ¬ clash k s i j) ∧ ∀ j, j < b → ¬ clash k s a j

/-- Whether a move is skipped, as the table `t` stands after the insertions: it is dead, or its subject or its reference is
not LIVE (R50). -/
def dropped (t : State) (v : Move) : Bool :=
  v.dead || !isLive (t.region v.subject) || (placementReference v.placement).any fun r => !isLive (t.region r)

/-- The band lists on which the moves of client `k`'s publish begin: its retired regions have left them (R43, R67), and its
new regions stand at the top of their bands, the last created first (R42, R69). -/
def insertedBands (k : ClientId) (s : State) : Bands :=
  let one (b : Band) := ((createdInOrder k s).filter fun i => decide (regionBand (s.region i) = some b)).reverse
    ++ (s.bands.get b).filter fun i => !isRetiringOf k (s.region i)
  { guarded := one .guarded, elevated := one .elevated, ordinary := one .ordinary }

/-- A publish of client `k` has been applied to the tables of `s`, with effective frame `eff`, giving those of `t` and the
reply (R67 to R72): marked regions FREE, staged parts committed, RESERVED regions LIVE, the moves that are not skipped
applied in order, each region changed, inserted or moved stamped, the client ACTIVE with no staging. -/
structure publishApplied (k : ClientId) (eff : Frame) (s t : State) (r : Reply) : Prop where
  regions : ∀ i, t.region i =
    let moved : Prop := i ∈ ((s.client k).moves.filter fun v => !dropped t v).map (·.subject)
    match s.region i with
    | .free => .free
    | .reserved q =>
      if q.owner = k then .live { owner := k, band := q.band, committed := q.staged, staged := none, changed := eff }
      else .reserved q
    | .live q =>
      if q.owner = k then
        match q.staged with
        | some st => if st.retire then .free else .live { q with committed := st.part, staged := none, changed := eff }
        | none => .live { q with changed := if moved then eff else q.changed }
      else .live { q with changed := if moved then eff else q.changed }
  bands : t.bands = ((s.client k).moves.filter fun v => !dropped t v).foldl
    (fun l v => l.modify ((regionBand (t.region v.subject)).getD .ordinary) (placeSubject v.placement v.subject))
    (insertedBands k s)
  clients : ∀ j, t.client j =
    if j = k then { s.client k with
      state := .active, moves := [], parkedEntry := false
      owned := (s.client k).owned - ((List.finRange 64).filter fun i => isRetiringOf k (s.region i)).length }
    else { s.client j with moves := (s.client j).moves.map fun v =>
      { v with dead := v.dead || (placementReference v.placement).any fun i => isRetiringOf k (s.region i) } }
  reply : r = {
    code := .ok, detail := .none
    fields := .publish (some eff) ((s.client k).moves.filter fun v => !dropped t v).length
      ((s.client k).moves.filter (dropped t)).length }

/-- A publish of client `k` has been refused with GUARD_OVERLAP: the tables stand, but the client is ACTIVE with no parked
entry (R66, R35). -/
structure publishRefused (k : ClientId) (s t : State) (r : Reply) : Prop where
  regions : t.regions = s.regions
  bands : t.bands = s.bands
  clients : t.clients = s.clients.set k { s.client k with state := .active, parkedEntry := false }
  reply : ∃ a b, overlapNamed k s a b ∧ r = { code := .guardOverlap, detail := .none, fields := .overlap a b }

/-- A close of client `k` has been applied (R33, R43, R48): its LIVE regions are FREE and out of the band lists, moves that
refer to them are dead, and it is CLOSED. -/
structure closeApplied (k : ClientId) (s t : State) : Prop where
  regions : ∀ i, t.region i = if isLiveOf k (s.region i) then .free else s.region i
  bands : ∀ b, t.bands.get b = (s.bands.get b).filter fun i => !isLiveOf k (s.region i)
  clients : ∀ j, t.client j =
    if j = k then { state := .closed, terms := none, owned := 0, moves := [], parkedEntry := false }
    else { s.client j with moves := (s.client j).moves.map fun v =>
      { v with dead := v.dead || (placementReference v.placement).any fun i => isLiveOf k (s.region i) } }

/-- What waits for the Lease Monitor, its counters and its set are as they were. -/
def leasesKept (s t : State) : Prop :=
  t.leaseInbox = s.leaseInbox ∧ t.counters = s.counters ∧ t.lapsePending = s.lapsePending

/-- The Lease Monitor has taken everything handed to it in `s` and then loaded client `k`'s counter with the period `p`
(R93; log 5). -/
structure leaseLoaded (k : ClientId) (p : Nat) (s t : State) : Prop where
  inbox : t.leaseInbox = []
  counters : ∀ j, t.counter j =
    if j = k then { count := p, running := decide (p ≠ 0) } else (settleLease s).counter j
  pending : t.lapsePending = (settleLease s).lapsePending

/-- The Lease Monitor has taken everything handed to it in `s` and then stopped client `k`'s counter and discarded its notice
(R31 step 3, R96; log 5). -/
structure leaseStopped (k : ClientId) (s t : State) : Prop where
  inbox : t.leaseInbox = []
  counters : ∀ j, t.counter j = if j = k then { count := 0, running := false } else (settleLease s).counter j
  pending : t.lapsePending = (settleLease s).lapsePending.filter fun j => decide (j ≠ k)

/-- The Lease Monitor has taken everything handed to it in `s` and then stopped the counters of clients 1 to 15 at 0 and
emptied the Lapse Pending Set (R90, R96; log 5). -/
structure leasesCleared (s t : State) : Prop where
  inbox : t.leaseInbox = []
  counters : ∀ j, t.counter j = if j = 0 then (settleLease s).counter j else { count := 0, running := false }
  pending : t.lapsePending = []

/-- A clear has been applied (R90, R37, R52): every record FREE, every list empty, clients 1 to 15 CLOSED, client 0 with its
state and terms. -/
structure clearApplied (s t : State) : Prop where
  regions : ∀ i, t.region i = .free
  bands : t.bands = { guarded := [], elevated := [], ordinary := [] }
  clients : ∀ j, t.client j = if j = 0 then { s.client j with owned := 0, moves := [] } else
    { state := .closed, terms := none, owned := 0, moves := [], parkedEntry := false }

/-- The first entry of the Parked List of `s` has been applied, giving the tables of `t` and the answer to its requester (R87):
a PUBLISH goes through or is refused, a CLOSE closes its client, a CLEAR_ALL clears and stops the leases of clients 1 to 15.
Only the clear asks anything of the Lease Monitor. Each reads its effective frame in `s` (R72, R84). -/
def entryApplied (e : ParkedEntry) (s t : State) (a : Answer) : Prop :=
  match e with
  | .publish k tag => a.kind = 6 ∧ a.header = some { client := k, tag := tag } ∧ leasesKept s t
      ∧ ((∃ i j, clash k s i j) → publishRefused k s t a.reply)
      ∧ ((∀ i j, ¬ clash k s i j) → publishApplied k (frameOfChange s) s t a.reply)
  | .close k tag => a = {
        kind := 12, header := some { client := 0, tag := tag }
        reply := { code := .ok, detail := .none, fields := .effective (frameOfChange s) } }
      ∧ leasesKept s t ∧ closeApplied k s t
  | .clearAll tag => a = {
        kind := 13, header := some { client := 0, tag := tag }
        reply := { code := .ok, detail := .none, fields := .effective (frameOfChange s) } }
      ∧ leasesCleared s t ∧ clearApplied s t

/-! ### Limits of the client records and the lease counters -/

/-- Quotas, periods, move lists, counters and the Lapse Pending Set stay within their ranges, and a move's subject belongs
to the client whose list holds it (R21, R23, R24, R44, R92, R97). -/
structure ClientLimitsHold (s : State) : Prop where
  terms : ∀ k t, (s.client k).terms = some t →
    1 ≤ t.quota ∧ t.quota ≤ 64 ∧ t.period ≤ 1023 ∧ (s.client k).owned ≤ t.quota
  moves : ∀ k, (s.client k).moves.length ≤ 8
  subjects : ∀ k, ∀ v ∈ (s.client k).moves, regionOwner (s.region v.subject) = some k
  counts : ∀ k, (s.counter k).count ≤ 1023
  stopped : ∀ k, (s.counter k).running = false → (s.counter k).count = 0
  loads : ∀ k p, LeaseMsg.load k p ∈ s.leaseInbox → p ≤ 1023
  ascending : s.lapsePending.Pairwise (· < ·)

/-- The lease counters beside the client records, as R92's table and R97 have them. A counter runs only for an ACTIVE or
PUBLISHING client, with a count of 1 to its lease period; a STOPPED counter is at 0; such a client with a nonzero period
whose counter is STOPPED is in the Lapse Pending Set, and the set holds no other client. Of the engine's messages only reload
claims wait between two commands (log 5). -/
structure LeasesHold (s : State) : Prop where
  running : ∀ k, (s.counter k).running = true →
    ((s.client k).state = .active ∨ (s.client k).state = .publishing)
    ∧ 1 ≤ (s.counter k).count ∧ (s.counter k).count ≤ leasePeriod s k
  stopped : ∀ k, (s.counter k).running = false → (s.counter k).count = 0
  lapsing : ∀ k, (s.client k).state = .active ∨ (s.client k).state = .publishing → leasePeriod s k ≠ 0 →
    (s.counter k).running = true ∨ k ∈ s.lapsePending
  pending : ∀ k, k ∈ s.lapsePending → (s.counter k).running = false ∧ leasePeriod s k ≠ 0
    ∧ ((s.client k).state = .active ∨ (s.client k).state = .publishing)
  claims : ∀ m ∈ s.leaseInbox, ∃ k, m = .claim k

/-! ### Field groups -/

/-- A part meets R3, R4 and R5 for a panel and a band. -/
def partValid (p : Panel) (b : Band) (q : Part) : Prop :=
  q.geometry.valid p = true ∧ q.source.valid = true ∧ q.appearance.valid b = true

/-- Every part of every record meets R3, R4 and R5 against the panel configuration and the record's band (R6, R108). -/
def PartsValid (s : State) : Prop :=
  ∀ i, match s.region i with
    | .free => True
    | .reserved g => partValid s.panel g.band g.staged
    | .live g => partValid s.panel g.band g.committed ∧ ∀ st, g.staged = some st → partValid s.panel g.band st.part

/-! ### Contents of the scan lists -/

/-- What a scan list holds (R110, R111, R120): entries of different ids in the stacking order, each with its groups valid for
the list's panel (R3, R4); its GUARDED entries, at most 4 (R25), OPAQUE (R5) and apart from each other (R66, R135). -/
structure ListHolds (l : ScanList) : Prop where
  panel : l.panel.valid = true
  ids : (l.entries.map (·.id)).Nodup
  stacked : l.entries.Pairwise fun a b => bandNumber a.band ≤ bandNumber b.band
  valid : ∀ e ∈ l.entries, e.geometry.valid l.panel = true ∧ e.source.valid = true
  few : (l.entries.filter fun e => decide (e.band = .guarded)).length ≤ 4
  solid : ∀ e ∈ l.entries, e.band = .guarded → e.opacity = .solid
  apart : l.entries.Pairwise fun a b =>
    a.band = .guarded → b.band = .guarded → a.geometry.overlaps b.geometry = false

/-- The scan lists and what the next copy into one will read: both lists hold what they must, the panel configuration is one
SET_PANEL accepts (R107), and while the unit is COPYING every committed geometry is valid for the panel size latched into the
FILLING list (R119, R121). -/
structure ScanListsHold (s : State) : Prop where
  lists : ∀ n, ListHolds (s.scanList n)
  panel : s.panel.valid = true
  copying : isCopying s = true → ∀ i g, s.region i = .live g →
    g.committed.geometry.valid (s.scanList s.filling).panel = true

/-! ### The span path -/

/-- The items of a line, in the order the port sends them (R144). -/
def lineItems (l : Line) : List SpanItem :=
  lineHeadOf l :: l.spans.flatMap spanItems

/-- The Span Output Port and the Span Queue (R142, R143, R145): an IDLE port has an empty queue; a sending port is within
the items of the older line; an aborting port has at most a LINE_ABORT after the item in hand. -/
def PortHolds (s : State) : Prop :=
  match s.spanPort with
  | .idle => s.spanQueue = []
  | .sending p => p.sent < (itemWords p.item).length ∧
      ∃ l rest before, s.spanQueue = l :: rest ∧ before ++ p.item :: p.later = lineItems l
  | .aborting p => p.sent < (itemWords p.item).length ∧ (p.later = [] ∨ ∃ n tag, p.later = [.lineAbort n tag])

/-- A build in flight reads the SHOWING list, for a line which that list's panel has (R127, R128, R129). -/
def BuilderHolds (s : State) : Prop :=
  ∀ n list, s.builder = .building n list → list = s.showing ∧ lineProduced (s.scanList list) n = true

/-! ### Lines -/

/-- Spans from pixel `x` on cover each pixel up to `w - 1` once, in increasing order (R139). -/
def spansTile (x w : Nat) : List Span → Prop
  | [] => x = w
  | sp :: rest => sp.startX = x ∧ 1 ≤ sp.length ∧ spansTile (x + sp.length) w rest

/-- The spans chosen for the segments of an overflow line with budget `budget` for its stretches, from left to right (R136,
R137). A protected span is kept. A stretch whose candidates fit in the budget less one for each later stretch keeps them
all; another keeps the leftmost of them, one fewer than that, and one BACKGROUND span covers the rest. -/
def stretchesFilled (budget : Nat) : List Segment → List Run → Prop
  | [], out => out = []
  | .protectedSpan r :: rest, out => ∃ o, out = r :: o ∧ stretchesFilled budget rest o
  | .stretch c :: rest, out =>
    let share := budget - (rest.filter fun g => match g with | .stretch _ => true | _ => false).length
    (c.length ≤ share → ∃ o, out = c ++ o ∧ stretchesFilled (budget - c.length) rest o)
    ∧ (share < c.length → ∃ (f : Run) (o : List Run),
        out = c.take (share - 1) ++ f :: o
        ∧ f = { startX := (((c.drop (share - 1)).head?).map (·.startX)).getD 0
                length := ((c.drop (share - 1)).map (·.length)).sum, pixel := { owner := none, underlay := none } }
        ∧ stretchesFilled (budget - share) rest o)

/-- The runs of a segment. -/
def segmentRuns : Segment → List Run
  | .protectedSpan r => [r]
  | .stretch c => c

/-- The segments of a line (R136): a protected span each, and between them stretches of candidates, none of them protected and
no two side by side. -/
def segmentsHold (l : List Segment) : Prop :=
  (∀ g ∈ l, match g with
    | .protectedSpan r => protectedRun r = true
    | .stretch c => c ≠ [] ∧ ∀ r ∈ c, protectedRun r = false)
  ∧ l.IsChain fun a b => ¬ ∃ c d, a = .stretch c ∧ b = .stretch d

/-! ### Formats -/

/-- The layout of request messages (R179, R180): words counted from 1, the client and tag in the second, and the field groups
of a CREATE and, from word 4 on, of an EDIT. -/
structure RequestLayout : Prop where
  words : ∀ (before after : List Word) (w : Word), messageWord (before ++ w :: after) (before.length + 1) = w
  header : ∀ m, (messageHeader m).client.val = (messageWord m 2).toNat / 4096
    ∧ (messageHeader m).tag.toNat = (messageWord m 2).toNat % 256
  create : ∀ w1 w2 x y w h p ww wh oc orow a : Word, createPart [w1, w2, x, y, w, h, p, ww, wh, oc, orow, a] =
    { geometry := { x := x.toNat, y := y.toNat, width := w.toNat, height := h.toNat }
      source := { plane := p.toNat, wrapWidth := ww.toNat, wrapHeight := wh.toNat
                  originColumn := oc.toNat, originRow := orow.toNat }
      appearance := { opacity := if a.getLsbD 8 then .keyed else .solid, visible := a.getLsbD 9
                      touch := if a.getLsbD 10 then .accepts else .absorbs } }
  edit : ∀ w1 w2 w3 x y w h p ww wh oc orow a : Word,
    editGroups ([w1, w2, w3] ++ (if w3.getLsbD 8 then [x, y, w, h] else [])
        ++ (if w3.getLsbD 9 then [p, ww, wh, oc, orow] else []) ++ (if w3.getLsbD 10 then [a] else [])) =
      { geometry := if w3.getLsbD 8 then
          some { x := x.toNat, y := y.toNat, width := w.toNat, height := h.toNat } else none
        source := if w3.getLsbD 9 then
          some { plane := p.toNat, wrapWidth := ww.toNat, wrapHeight := wh.toNat
                 originColumn := oc.toNat, originRow := orow.toNat } else none
        appearance := if w3.getLsbD 10 then
          some { opacity := if a.getLsbD 8 then .keyed else .solid, visible := a.getLsbD 9
                 touch := if a.getLsbD 10 then .accepts else .absorbs } else none }

/-- The number of a bit at a position (11). -/
def bitNumber (b : Bool) (n : Nat) : Nat :=
  if b then 2 ^ n else 0

/-- The layout of answers (R181, "answer codes"): 2 to 24 words; kind and length in the first; client and tag present, detail
and code in the second; client and tag in the third. -/
structure AnswerLayout : Prop where
  length : ∀ a : Answer, 2 ≤ (answerWords a).length ∧ (answerWords a).length ≤ 24
  words : ∀ a : Answer, (answerWords a).map (·.toNat) =
    [a.kind.toNat * 256 + (answerWords a).length,
      bitNumber a.header.isSome 15 + 256 * (match a.reply.detail with
        | .none => 0 | .geometry => 1 | .source => 2 | .appearance => 3 | .lapse => 1 | .close => 2)
        + answerCodeNumber a.reply.code]
    ++ (match a.header with | none => [] | some h => [h.client.val * 4096 + h.tag.toNat])
    ++ (fieldWords a.reply.fields).map (·.toNat)
  codes : [AnswerCode.ok, .malformed, .noClient, .lapsed, .held, .notPermitted, .badField, .badRegion, .retiring,
    .bandMismatch, .moveFull, .quota, .noRegion, .guardLimit, .noPanel, .guardOverlap, .wrongState, .panelInUse,
    .cancelled].map answerCodeNumber = List.range 19

/-- The 9 numbers of a region part in a QUERY_REGION answer (R182). -/
def partLayout (p : Part) (retire : Bool) : List Nat :=
  [p.geometry.x, p.geometry.y, p.geometry.width, p.geometry.height, p.source.wrapWidth, p.source.wrapHeight,
    p.source.originColumn, p.source.originRow,
    p.source.plane + bitNumber (p.appearance.opacity = .keyed) 8 + bitNumber p.appearance.visible 9
      + bitNumber (p.appearance.touch = .accepts) 10 + bitNumber retire 15]

/-- The words of an answer from word 4 on (R182), for fields within their ranges. -/
structure FieldLayout : Prop where
  noFields : fieldWords .none = []
  region : ∀ i : RegionId, (fieldWords (.region i)).map (·.toNat) = [i.val]
  moveCount : ∀ n, n ≤ 8 → (fieldWords (.moveCount n)).map (·.toNat) = [n]
  publish : ∀ (eff : Option Frame) (applied skipped : Nat), applied ≤ 8 → skipped ≤ 8 →
    (fieldWords (.publish eff applied skipped)).map (·.toNat) =
      [bitNumber eff.isSome 15 + 256 * applied + skipped, (eff.getD 0).toNat]
  overlap : ∀ a b : RegionId, (fieldWords (.overlap a b)).map (·.toNat) = [256 * a.val + b.val]
  effective : ∀ f : Frame, fieldWords (.effective f) = [f]
  regionReport : ∀ r : RegionReport, r.position ≤ 64 →
    (match r.region with
      | .free => True
      | .reserved g => ∃ p, partValid p g.band g.staged
      | .live g => ∃ p, partValid p g.band g.committed ∧ ∀ st, g.staged = some st → partValid p g.band st.part) →
    (fieldWords (.regionReport r)).map (·.toNat) =
      match r.region with
      | .free => [0, 256 * r.id.val + r.position, 0] ++ List.replicate 18 0
      | .reserved g =>
        [1 + 16 * bandNumber g.band + 256 * g.owner.val + bitNumber r.stagedShown 14, 256 * r.id.val + r.position, 0]
          ++ List.replicate 9 0 ++ (if r.stagedShown then partLayout g.staged false else List.replicate 9 0)
      | .live g =>
        [2 + 16 * bandNumber g.band + 256 * g.owner.val + 4096 + 8192 + bitNumber (r.stagedShown && g.staged.isSome) 14,
            256 * r.id.val + r.position, g.changed.toNat]
          ++ partLayout g.committed false
          ++ (match g.staged with
            | some st => if r.stagedShown then partLayout st.part st.retire else List.replicate 9 0
            | none => List.replicate 9 0)
  clientReport : ∀ r : ClientReport, r.owned ≤ 64 → r.leaseRemaining ≤ 1023 → r.moveCount ≤ 8 →
    (∀ t, r.terms = some t → t.quota ≤ 64 ∧ t.period ≤ 1023) →
    (fieldWords (.clientReport r)).map (·.toNat) =
      [4096 * r.target.val + 256 * (match r.state with
          | .closed => 0 | .active => 1 | .publishing => 2 | .lapsed => 3 | .closing => 4)
          + 16 * ((r.terms.map fun t => bandNumber t.cls).getD 0) + bitNumber r.terms.isSome 3 + bitNumber r.parkedEntry 0,
        256 * r.owned + (r.terms.map (·.quota)).getD 0, (r.terms.map (·.period)).getD 0,
        4096 * r.moveCount + r.leaseRemaining]
  bands : bandNumber .guarded = 0 ∧ bandNumber .elevated = 1 ∧ bandNumber .ordinary = 2

/-- The numbers of an underlay's region fields: the first word below its kind, and the second word (R183). -/
def underlayLayout (u : UnderlaySource) : Nat × Nat :=
  (2 ^ 16 * u.id.val + 2 ^ 13 * u.plane + u.wrapWidth, 2 ^ 16 * u.row + u.startColumn)

/-- The words of the items of the Span Output Port (R183), for fields within their ranges (R133, R134). -/
structure SpanLayout : Prop where
  lineHead : ∀ n tag count overflow, n ≤ 4095 → count ≤ 32 →
    (itemWords (.lineHead n tag count overflow)).map (·.toNat) =
      [1 * 2 ^ 28 + bitNumber overflow 27 + 2 ^ 16 * count + n, tag.toNat]
  background : ∀ x len, x ≤ 2047 → len ≤ 2048 →
    (itemWords (.span { startX := x, length := len, content := none })).map (·.toNat) =
      [2 * 2 ^ 28 + 2 ^ 12 * len + x, 0, 0]
  region : ∀ x len (r : RegionSpan), x ≤ 2047 → len ≤ 2048 → r.plane ≤ 7 → r.wrapWidth ≤ 4096 → r.row ≤ 4095 →
    r.startColumn ≤ 4095 →
    (itemWords (.span { startX := x, length := len, content := some r })).map (·.toNat) =
      [2 * 2 ^ 28 + 2 ^ 27 + bitNumber r.underlay.isSome 26 + 2 ^ 12 * len + x,
        2 ^ 24 * r.owner.val + 2 ^ 16 * r.id.val + 2 ^ 13 * r.plane + r.wrapWidth, 2 ^ 16 * r.row + r.startColumn]
  noUnderlay : (itemWords (.underlay none)).map (·.toNat) = [3 * 2 ^ 28, 0]
  underlay : ∀ u : UnderlaySource, u.plane ≤ 7 → u.wrapWidth ≤ 4096 → u.row ≤ 4095 → u.startColumn ≤ 4095 →
    (itemWords (.underlay (some u))).map (·.toNat) = [3 * 2 ^ 28 + 2 ^ 27 + (underlayLayout u).1, (underlayLayout u).2]
  lineAbort : ∀ n tag, n ≤ 4095 → (itemWords (.lineAbort n tag)).map (·.toNat) = [4 * 2 ^ 28 + n, tag.toNat]
  codes : ∀ it : SpanItem, (itemWords it).map (fun w => w.toNat / 2 ^ 28) =
    match it with
    | .lineHead .. => [1, 0]
    | .span _ => [2, 0, 0]
    | .underlay _ => [3, 0]
    | .lineAbort .. => [4, 0]

/-- Two bytes of a number, high byte first (R184). -/
def highLow (n : Nat) : List Nat :=
  [n / 256, n % 256]

/-- The 18 bytes of a lookup answer (R159, R184), for fields within their ranges; the first is never 255 (R162). -/
structure LookupLayout : Prop where
  bytes : ∀ a : LookupAnswer, a.touchId ≤ 15 → a.captureLine ≤ 4095 →
    (match a.result with
      | .hit h => h.localX ≤ 2047 ∧ h.localY ≤ 1535 ∧ h.plane ≤ 7 ∧ h.sourceColumn ≤ 4095 ∧ h.sourceRow ≤ 4095
      | _ => True) →
    (lookupAnswerBytes a).map (·.toNat) =
      [a.touchId + 16 * (match a.result with | .outside => 0 | .background => 1 | .absorbed _ _ => 2 | .hit _ => 3)]
      ++ highLow a.captureFrame.toNat ++ highLow a.captureLine ++ highLow a.listTag.toNat
      ++ (match a.result with
        | .outside | .background => List.replicate 11 0
        | .absorbed i k => [i.val, k.val] ++ List.replicate 9 0
        | .hit h => [h.id.val, h.owner.val] ++ highLow h.localX ++ highLow h.localY ++ [h.plane]
            ++ highLow h.sourceColumn ++ highLow h.sourceRow)
  length : ∀ a : LookupAnswer, (lookupAnswerBytes a).length = 18 ∧ (lookupAnswerBytes a).head? ≠ some 255

/-! ### Requests -/

/-- The command by which the engine takes a request of a kind; `race` for the kinds whose piece loads or stops counters
(log 7). -/
def requestCommand (race : LeaseRace) : RequestKind → Instr
  | .create => .create
  | .edit => .edit
  | .retire => .retire
  | .restack => .restack
  | .discard => .discard
  | .publish => .publish
  | .renew => .renew
  | .queryRegion => .queryRegion
  | .queryClient => .queryClient .apart
  | .resume => .resume race
  | .openClient => .openClient race
  | .closeClient => .closeClient race
  | .clearAll => .clearAll race
  | .setPanel => .setPanel

/-- The kinds whose piece loads or stops counters (R93, R96). -/
def leaseKind : RequestKind → Bool
  | .resume | .openClient | .closeClient | .clearAll => true
  | .create | .edit | .retire | .restack | .discard | .publish | .renew | .queryRegion | .queryClient | .setPanel => false

/-- A piece that stands at `s` goes on from `u`: from `s`, or from what LEASE_FRAME_START makes of it when the Lease Monitor
takes a FRAME_START within the piece (R94; log 7). -/
def goesOnFrom (race : LeaseRace) (s u : State) : Prop :=
  match race with
  | .apart => u = s
  | .frameFirst => exec .leaseFrameStart s = .next u

end Sys2Proof.Machine
end

