-- ==== Sys2Proof/Certificates/Slice0/Obligations.lean ====
section
/-! DEFINITION. The statements for the provers, each a `def Obligations.<Name> : Prop`, with the rules it comes from.
Where a statement rests on a choice of the model its docstring names the entry of notes/assumptions. -/

open Sys2Proof Sys2Proof.Machine

/-! ### One step, reset -/

/-- A step takes the command at the front of the queue and runs it with the queue's rest; with no command waiting the part
idles (logs 3 and 4). Every command completes and leaves the queue of commands alone: the part has no trap and no fatal
error (INVENTORY.md, "Faults"), and a command whose event cannot take place changes nothing (log 2). -/
def Obligations.StepRunsFrontCommand : Prop :=
  (∀ (c : Instr) (rest : List Instr) (s : State), s.pending = c :: rest →
      step s = exec c { s with pending := rest })
    ∧ (∀ s : State, s.pending = [] → step s = .next s)
    ∧ ∀ (c : Instr) (s : State), ∃ t, exec c s = .next t ∧ t.pending = s.pending

/-- What DEVICE_RESET leaves (R20, R38, R52, R91, R103, R104, R106, R126, R148, R163, R178): with RESET low nothing is driven
on RQ_D, IRQ and SP_VALID are low, and no block takes anything until the reset ends (R106, R147, R163, R178). The level is
the command's operand (log 10). The queue of commands and the LK_SEL pin stand outside the part (logs 4 and 16). -/
def Obligations.DeviceResetValues : Prop :=
  (∀ (s : State) (level : PinLevel), ∃ t, exec (.deviceReset level) s = .next t
    ∧ (t.resetLow = true ↔ level = .low)
    ∧ (∀ i, t.region i = .free)
    ∧ (∀ k, t.client k =
        if k = 0 then { state := .active, terms := some { cls := .guarded, quota := 64, period := 0 }, owned := 0,
                        moves := [], parkedEntry := false }
        else { state := .closed, terms := none, owned := 0, moves := [], parkedEntry := false })
    ∧ t.bands = { guarded := [], elevated := [], ordinary := [] } ∧ t.parked = []
    ∧ t.panel = { width := 0, height := 0 } ∧ t.engine = .free ∧ t.committedWork = false ∧ t.copyEndDue = false
    ∧ (∀ k, t.counter k = { count := 0, running := false }) ∧ t.lapsePending = [] ∧ t.leaseInbox = []
    ∧ t.frameCounter = 0 ∧ t.lineCounter = 0 ∧ t.snapState = .idle ∧ t.snapFrame = 0
    ∧ (∀ n, t.scanList n = { tag := 0, panel := { width := 0, height := 0 }, entries := [], pinCount := 0 })
    ∧ t.showing = .a ∧ t.builder = .idle ∧ t.spanQueue = [] ∧ t.spanPort = .idle
    ∧ t.pointBytes = [] ∧ t.points = [] ∧ t.lookup = .idle ∧ t.lookupAnswers = [] ∧ t.lookupRead = 0
    ∧ t.assembly.words = [] ∧ t.requests = [] ∧ t.answers = [] ∧ t.answerRead = 0 ∧ t.statusHeld = none
    ∧ t.lastReadEmpty = false ∧ t.flags = noFlags
    ∧ t.enables = { flags := noFlags, answerAvailable := false, lookupAvailable := false } ∧ t.rqData = none
    ∧ irq t = false ∧ spValid t = false ∧ t.pending = s.pending ∧ t.lkSel = s.lkSel)
  ∧ ∀ s : State, s.resetLow = true → irq s = false ∧ spValid s = false
    ∧ ∀ c : Instr, (∀ level, c ≠ .deviceReset level) → (∀ level, c ≠ .lkSelFall level) → exec c s = .next s

/-! ### The Request Port -/

/-- A word written to REQUEST joins the assembly; the word that makes the length taken from the first word completes the
message, which joins the Request Queue or, when that holds 16, is discarded whole with REQUEST_OVERRUN set (R165, R166,
R167). The port drives no word after a write (R164). -/
def Obligations.RequestWordAssembles : Prop :=
  ∀ (w : Word) (s : State), s.resetLow = false →
    let field := w.toNat % 32
    let length := if s.assembly.words = [] then (if field = 0 then 1 else min field 16) else s.assembly.length
    let words := s.assembly.words ++ [w]
    let u := { s with assembly := { words := [], length := 0 }, rqData := none }
    (words.length < length →
      exec (.requestWordWrite w) s = .next { s with assembly := { words := words, length := length }, rqData := none })
    ∧ (words.length = length → s.requests.length < 16 →
      exec (.requestWordWrite w) s = .next { u with requests := s.requests ++ [words] })
    ∧ (words.length = length → 16 ≤ s.requests.length →
      exec (.requestWordWrite w) s = .next { u with flags := { s.flags with requestOverrun := true } })

/-- A read of ANSWER returns the next unread word of the head answer, and the read of its last word removes it; at this
removal a STALLED engine places the answer it holds, and goes on with the rest of its piece, if it has one, in a later
command (R170, R82; log 13). A read of an empty queue returns 0 and changes the last-read-empty indication alone (R171). -/
def Obligations.AnswerReadNext : Prop :=
  (∀ (s : State) (a : Answer) (rest : List Answer) (w : Word), s.resetLow = false → s.answers = a :: rest →
      (answerWords a)[s.answerRead]? = some w →
      let u := { s with rqData := some w, lastReadEmpty := false }
      (s.answerRead + 1 < (answerWords a).length →
        exec .answerRead s = .next { u with answerRead := s.answerRead + 1 })
      ∧ (s.answerRead + 1 = (answerWords a).length →
        ((∀ b r, s.engine ≠ .stalled b r) → exec .answerRead s = .next { u with answers := rest, answerRead := 0 })
        ∧ ∀ b r, s.engine = .stalled b r → rest.length < 16 →
          exec .answerRead s = .next (given b r { u with answers := rest, answerRead := 0 })))
    ∧ ∀ s : State, s.resetLow = false → s.answers = [] →
      exec .answerRead s = .next { s with rqData := some 0, lastReadEmpty := true }

/-- A read of STATUS at position 0 takes a snapshot of every status field and returns its first word; a read at position 1
returns the second word of the same snapshot (R172). The fields (R173) and the bits of the two words (R185, tables). -/
def Obligations.StatusReadPair : Prop :=
  (∀ s : State, s.resetLow = false → s.statusHeld = none →
      exec .statusRead s =
        .next { s with statusHeld := some (statusSnapshot s), rqData := some (statusFirstWord (statusSnapshot s)) })
    ∧ (∀ (s : State) (p : StatusSnapshot), s.resetLow = false → s.statusHeld = some p →
      exec .statusRead s = .next { s with statusHeld := none, rqData := some (statusSecondWord p) })
    ∧ (∀ s : State, statusSnapshot s =
        { flags := s.flags, answerAvailable := decide (s.answers ≠ []), lookupAvailable := decide (s.lookupAnswers ≠ [])
          assemblyInProgress := decide (s.assembly.words ≠ []), lastReadEmpty := s.lastReadEmpty
          queueRoom := 16 - s.requests.length, answersWaiting := s.answers.length
          wordsRemaining := (s.answers.head?.map fun a => (answerWords a).length - s.answerRead).getD 0 })
    ∧ (∀ (p : StatusSnapshot) (j : Nat), (statusFirstWord p).getLsbD j =
        match j with
        | 0 => p.flags.snapshotLate
        | 1 => p.flags.lineDropped
        | 2 => p.flags.spanOverflow
        | 3 => p.flags.leaseLapse
        | 4 => p.flags.requestOverrun
        | 5 => p.flags.lookupOverrun
        | 8 => p.answerAvailable
        | 9 => p.lookupAvailable
        | 12 => p.assemblyInProgress
        | 13 => p.lastReadEmpty
        | _ => false)
    ∧ ∀ p : StatusSnapshot, p.queueRoom ≤ 16 → p.answersWaiting ≤ 16 → p.wordsRemaining ≤ 24 →
        (statusSecondWord p).toNat = p.queueRoom + 32 * p.answersWaiting + 1024 * p.wordsRemaining

/-- A write to STATUS clears each event flag whose bit is 1 and leaves the others, empties the assembly when the abandon
bit is 1, and sets the status read position to 0 (R168, R172, R174). The two rows of the table that write STATUS are the
one transaction (log 12). -/
def Obligations.StatusWriteClears : Prop :=
  ∀ (w : Word) (s : State), s.resetLow = false →
    let t := { s with
      flags := {
        snapshotLate := s.flags.snapshotLate && !w.getLsbD 0, lineDropped := s.flags.lineDropped && !w.getLsbD 1
        spanOverflow := s.flags.spanOverflow && !w.getLsbD 2, leaseLapse := s.flags.leaseLapse && !w.getLsbD 3
        requestOverrun := s.flags.requestOverrun && !w.getLsbD 4
        lookupOverrun := s.flags.lookupOverrun && !w.getLsbD 5 }
      assembly := if w.getLsbD 15 then { words := [], length := 0 } else s.assembly
      statusHeld := none
      rqData := none }
    exec (.eventFlagClear w) s = .next t
      ∧ ((Instr.assemblyAbandon w).wellFormed = true → exec (.assemblyAbandon w) s = .next t)

/-- A write to ENABLE replaces the whole mask with bits 0 to 5, 8 and 9 of the word, and changes nothing else; a read of
ENABLE then returns those bits, the others being 0 (R176, R185). What an edge of RQ_CLK takes, by the levels of RQ_CS, RQ_WR,
RQ_RD and RQ_A (R164): a write or a read of one window, or nothing. A write to ANSWER, a read of REQUEST, a read of ENABLE and
an edge without a transaction change no state but the word driven on RQ_D. They share one row of the table (log 11). -/
def Obligations.EnableWriteReplaces : Prop :=
  (∀ (w : Word) (s : State), s.resetLow = false → ∃ t, exec (.enableWrite w) s = .next t
      ∧ t = { s with enables := t.enables, rqData := none }
      ∧ t.enables.flags = {
          snapshotLate := w.getLsbD 0, lineDropped := w.getLsbD 1, spanOverflow := w.getLsbD 2
          leaseLapse := w.getLsbD 3, requestOverrun := w.getLsbD 4, lookupOverrun := w.getLsbD 5 }
      ∧ t.enables.answerAvailable = w.getLsbD 8 ∧ t.enables.lookupAvailable = w.getLsbD 9
      ∧ exec (.answerWindowWrite .enableRead) t = .next { t with rqData := some (w &&& 0x033F#16) })
    ∧ (∀ s : State, s.resetLow = false →
      (∀ w, exec (.answerWindowWrite (.answerWrite w)) s = .next { s with rqData := none })
      ∧ exec (.answerWindowWrite .requestRead) s = .next { s with rqData := some 0 }
      ∧ exec (.answerWindowWrite .enableRead) s = .next { s with rqData := some (enableWord s.enables) }
      ∧ exec (.answerWindowWrite .noTransaction) s = .next { s with rqData := none })
    ∧ (∀ w, edgeCommand { cs := true, wr := true, rd := false, a := 0, d := w } = .requestWordWrite w
      ∧ edgeCommand { cs := true, wr := true, rd := false, a := 1, d := w } = .answerWindowWrite (.answerWrite w)
      ∧ edgeCommand { cs := true, wr := true, rd := false, a := 2, d := w } =
        (if w.getLsbD 15 then .assemblyAbandon w else .eventFlagClear w)
      ∧ edgeCommand { cs := true, wr := true, rd := false, a := 3, d := w } = .enableWrite w
      ∧ edgeCommand { cs := true, wr := false, rd := true, a := 0, d := w } = .answerWindowWrite .requestRead
      ∧ edgeCommand { cs := true, wr := false, rd := true, a := 1, d := w } = .answerRead
      ∧ edgeCommand { cs := true, wr := false, rd := true, a := 2, d := w } = .statusRead
      ∧ edgeCommand { cs := true, wr := false, rd := true, a := 3, d := w } = .answerWindowWrite .enableRead)
    ∧ ∀ p : RequestPins, p.cs = false ∨ p.wr = p.rd → edgeCommand p = .answerWindowWrite .noTransaction

/-- IRQ is high exactly while RESET is high and a SET flag is ENABLED or a level condition that holds is ENABLED (R175, R177,
R178). -/
def Obligations.IrqFollowsConditions : Prop :=
  ∀ s : State, irq s = true ↔ s.resetLow = false
    ∧ ((s.flags.snapshotLate = true ∧ s.enables.flags.snapshotLate = true)
      ∨ (s.flags.lineDropped = true ∧ s.enables.flags.lineDropped = true)
      ∨ (s.flags.spanOverflow = true ∧ s.enables.flags.spanOverflow = true)
      ∨ (s.flags.leaseLapse = true ∧ s.enables.flags.leaseLapse = true)
      ∨ (s.flags.requestOverrun = true ∧ s.enables.flags.requestOverrun = true)
      ∨ (s.flags.lookupOverrun = true ∧ s.enables.flags.lookupOverrun = true)
      ∨ (s.answers ≠ [] ∧ s.enables.answerAvailable = true)
      ∨ (s.lookupAnswers ≠ [] ∧ s.enables.lookupAvailable = true))

/-- Formats of chapter 11. Of request messages: the numbering of the words, the client and tag, and the field groups of a
CREATE and of a masked EDIT (R179, R180); word 1 and the words of the other kinds stand where they are read, in the statements
about malformed messages and about each kind. Of answers and the fields of each kind of answer (R181, R182), of the items of
the Span Output Port (R183) and of lookup answers (R184, R159, R162): every field at its bits and every other bit 0, for
fields within their ranges. -/
def Obligations.FormatsHold : Prop :=
  RequestLayout ∧ AnswerLayout ∧ FieldLayout ∧ SpanLayout ∧ LookupLayout

/-! ### Common checks -/

/-- A malformed message is answered MALFORMED with the kind field as received, and with the client and tag when it has two
words or more; nothing else changes and no lease is reloaded (R78, R79, R80). A message is malformed unless it has two words
or more, a known kind, the length of its kind, and, for an EDIT, a mask that is not empty (R56, R78, R179). The Lease Monitor
has first taken what was handed to it (log 5). -/
def Obligations.MalformedAnswered : Prop :=
  (∀ (s : State) (m : List Word) (rest : List (List Word)), Takes s none m rest →
      exec .malformedMessage s = .next (placed
        { kind := BitVec.ofNat 8 ((messageWord m 1).toNat / 256)
          header := if m.length ≤ 1 then none else some (messageHeader m)
          reply := { code := .malformed, detail := .none, fields := .none } } (taken s rest)))
    ∧ ∀ (m : List Word) (k : RequestKind), messageKind m = some k ↔
        2 ≤ m.length ∧ (messageWord m 1).toNat / 256 = requestKindNumber k
          ∧ (k = .edit → (messageWord m 3).toNat / 256 % 8 ≠ 0)
          ∧ m.length = match k with
              | .create => 12
              | .edit => 3 + (if (messageWord m 3).getLsbD 8 then 4 else 0)
                  + (if (messageWord m 3).getLsbD 9 then 5 else 0) + (if (messageWord m 3).getLsbD 10 then 1 else 0)
              | .openClient => 5
              | .restack | .setPanel => 4
              | .retire | .queryRegion | .queryClient | .closeClient => 3
              | .discard | .publish | .renew | .resume | .clearAll => 2

/-- Checks 2 to 5 of R78 in order, for every kind: NO_CLIENT, LAPSED, HELD, NOT_PERMITTED. The refusal is the whole effect
(R79), with the reload claim when checks 1 to 3 were passed (R80). The state before is that of `taken` and `accepted`, in
which the Lease Monitor has taken what was handed to it (log 5). A FRAME_START within the piece of a RESUME, OPEN_CLIENT,
CLOSE_CLIENT, CLEAR_ALL or QUERY_CLIENT (log 7) alters no refusal; it counts the leases down as it does apart from the piece
(R94). A QUERY_CLIENT is refused by check 2 alone. -/
def Obligations.CommonChecksRefuse : Prop :=
  (∀ (s : State) (kind : RequestKind) (race : LeaseRace) (m : List Word) (rest : List (List Word)),
    Takes s (some kind) m rest →
    let h := messageHeader m
    let c := s.client h.client
    let refusedIn (v : State) (code : AnswerCode) : Prop :=
      ∃ u, goesOnFrom (if leaseKind kind then race else .apart) v u
        ∧ exec (requestCommand race kind) s = .next (placed (replyTo (requestKindNumber kind) h code .none .none) u)
    (c.state = .closed ∨ c.state = .closing → refusedIn (taken s rest) .noClient)
    ∧ (c.state = .lapsed → kind ≠ .resume → kind ≠ .queryClient → refusedIn (taken s rest) .lapsed)
    ∧ (c.state = .active ∨ c.state = .publishing ∨ (c.state = .lapsed ∧ kind = .resume) →
      ((c.state = .publishing ∧ stagingKind kind = true) ∨ (clearParked s = true ∧ queryKind kind = false) →
        refusedIn (accepted s rest h) .held)
      ∧ (¬ ((c.state = .publishing ∧ stagingKind kind = true) ∨ (clearParked s = true ∧ queryKind kind = false)) →
        supervisorKind kind = true → h.client ≠ 0 → refusedIn (accepted s rest h) .notPermitted)))
  ∧ ∀ (s : State) (race : QueryRace) (m : List Word) (rest : List (List Word)), Takes s (some .queryClient) m rest →
    let h := messageHeader m
    (s.client h.client).state = .closed ∨ (s.client h.client).state = .closing →
    ∃ u, exec .leaseFrameStart (taken s rest) = .next u
      ∧ exec (.queryClient race) s =
        .next (placed (replyTo 9 h .noClient .none .none) (if race = .apart then taken s rest else u))

/-! ### Staging -/

/-- A CREATE that passes its checks takes the lowest-numbered FREE record and makes it RESERVED for its client, with the
client's class as band, the message's groups as staged part and the next creation order; the owned count rises by 1, and the
answer carries the region (R7, R8, R24, R54, R55). The Lease Monitor has first taken what was handed to it (log 5). -/
def Obligations.CreateReserves : Prop :=
  ∀ (s : State) (m : List Word) (rest : List (List Word)) (tm : Terms) (i : RegionId),
    let h := messageHeader m
    let k := h.client
    Takes s (some .create) m rest → Passes s .create h → (s.client k).terms = some tm →
    ¬ (s.panel.width = 0 ∧ s.panel.height = 0) → (s.client k).owned ≠ tm.quota →
    s.region i = .free → (∀ j, j < i → s.region j ≠ .free) → (tm.cls = .guarded → guardedCount s < 4) →
    partValid s.panel tm.cls (createPart m) →
    exec .create s = .next (placed (replyTo 1 h .ok .none (.region i))
      { accepted s rest h with
        regions := s.regions.set i (.reserved
          { owner := k, band := tm.cls, staged := createPart m
            order := ((List.finRange 64).filter fun j => isReservedOf k (s.region j)).length + 1 })
        clients := s.clients.set k { s.client k with owned := (s.client k).owned + 1 } })

/-- The checks of a CREATE in order, each a refusal that changes nothing else (R54, R79). The Lease Monitor has first taken
what was handed to it (log 5). -/
def Obligations.CreateRefused : Prop :=
  ∀ (s : State) (m : List Word) (rest : List (List Word)) (tm : Terms),
    let h := messageHeader m
    let k := h.client
    let part := createPart m
    let refused (code : AnswerCode) (d : Detail) :=
      exec .create s = .next (placed (replyTo 1 h code d .none) (accepted s rest h))
    let configured := ¬ (s.panel.width = 0 ∧ s.panel.height = 0)
    let belowQuota := (s.client k).owned ≠ tm.quota
    let someFree := ∃ i, s.region i = .free
    let guardRoom := tm.cls = .guarded → guardedCount s < 4
    Takes s (some .create) m rest → Passes s .create h → (s.client k).terms = some tm →
    (¬ configured → refused .noPanel .none)
    ∧ (configured → ¬ belowQuota → refused .quota .none)
    ∧ (configured → belowQuota → ¬ someFree → refused .noRegion .none)
    ∧ (configured → belowQuota → someFree → ¬ guardRoom → refused .guardLimit .none)
    ∧ (configured → belowQuota → someFree → guardRoom → part.geometry.valid s.panel = false →
        refused .badField .geometry)
    ∧ (configured → belowQuota → someFree → guardRoom → part.geometry.valid s.panel = true →
        part.source.valid = false → refused .badField .source)
    ∧ (configured → belowQuota → someFree → guardRoom → part.geometry.valid s.panel = true →
        part.source.valid = true → part.appearance.valid tm.cls = false → refused .badField .appearance)

/-- An EDIT that passes its checks replaces the masked groups of its region's staged part, made first from the committed part
when a LIVE region has none; the committed part does not change (R9, R56, R57). The Lease Monitor has first taken what was
handed to it (log 5). -/
def Obligations.EditStages : Prop :=
  ∀ (s : State) (m : List Word) (rest : List (List Word)) (i : RegionId),
    let h := messageHeader m
    let k := h.client
    let g := editGroups m
    let edited (p : Part) : Part :=
      { geometry := g.geometry.getD p.geometry, source := g.source.getD p.source
        appearance := g.appearance.getD p.appearance }
    let allValid (b : Band) := (∀ x, g.geometry = some x → x.valid s.panel = true)
      ∧ (∀ x, g.source = some x → x.valid = true) ∧ (∀ x, g.appearance = some x → x.valid b = true)
    Takes s (some .edit) m rest → Passes s .edit h → (messageWord m 3).toNat % 256 = i.val →
    (∀ r : ReservedRegion, s.region i = .reserved r → r.owner = k → allValid r.band →
      exec .edit s = .next (placed (replyTo 2 h .ok .none .none)
        { accepted s rest h with regions := s.regions.set i (.reserved { r with staged := edited r.staged }) }))
    ∧ (∀ r : LiveRegion, s.region i = .live r → r.owner = k → r.staged = none → allValid r.band →
      exec .edit s = .next (placed (replyTo 2 h .ok .none .none)
        { accepted s rest h with
          regions := s.regions.set i (.live { r with staged := some { part := edited r.committed, retire := false } }) }))
    ∧ (∀ (r : LiveRegion) (st : StagedPart), s.region i = .live r → r.owner = k → r.staged = some st →
      st.retire = false → allValid r.band →
      exec .edit s = .next (placed (replyTo 2 h .ok .none .none)
        { accepted s rest h with
          regions := s.regions.set i (.live { r with staged := some { part := edited st.part, retire := false } }) }))

/-- The checks of an EDIT in order, each a refusal that changes nothing else (R56, R79). The Lease Monitor has first taken
what was handed to it (log 5). That the answer to a region number above 63 has detail 0 is the model's choice (log 23). -/
def Obligations.EditRefused : Prop :=
  ∀ (s : State) (m : List Word) (rest : List (List Word)),
    let h := messageHeader m
    let n := (messageWord m 3).toNat % 256
    let g := editGroups m
    let refused (code : AnswerCode) (d : Detail) :=
      exec .edit s = .next (placed (replyTo 2 h code d .none) (accepted s rest h))
    Takes s (some .edit) m rest → Passes s .edit h →
    (64 ≤ n → refused .badField .none)
    ∧ ∀ i : RegionId, n = i.val →
      (regionOwner (s.region i) ≠ some h.client → refused .badRegion .none)
      ∧ (regionOwner (s.region i) = some h.client →
        (retireMarked (s.region i) = true → refused .retiring .none)
        ∧ (retireMarked (s.region i) = false →
          ((∃ x, g.geometry = some x ∧ x.valid s.panel = false) → refused .badField .geometry)
          ∧ ((∀ x, g.geometry = some x → x.valid s.panel = true) →
            ((∃ x, g.source = some x ∧ x.valid = false) → refused .badField .source)
            ∧ ((∀ x, g.source = some x → x.valid = true) →
              ∀ b, regionBand (s.region i) = some b →
              (∃ x, g.appearance = some x ∧ x.valid b = false) → refused .badField .appearance))))

/-- A RETIRE of the client's own LIVE region sets the retire mark in its staged part, made first from the committed part if
there is none (R10, R59). A RETIRE of its own RESERVED region frees it: the client's later creation orders fall by 1, its
owned count falls by 1, its moves with the region as subject go, and every move with it as reference is dead (R8, R14, R47,
R48, R58). Other region numbers are refused (R58). The Lease Monitor has first taken what was handed to it (log 5). -/
def Obligations.RetireMarksOrFrees : Prop :=
  ∀ (s : State) (m : List Word) (rest : List (List Word)),
    let h := messageHeader m
    let k := h.client
    let n := (messageWord m 3).toNat % 256
    BandListsHold s → Takes s (some .retire) m rest → Passes s .retire h →
    (64 ≤ n → exec .retire s = .next (placed (replyTo 3 h .badField .none .none) (accepted s rest h)))
    ∧ ∀ i : RegionId, n = i.val →
      (regionOwner (s.region i) ≠ some k →
        exec .retire s = .next (placed (replyTo 3 h .badRegion .none .none) (accepted s rest h)))
      ∧ (∀ r : LiveRegion, s.region i = .live r → r.owner = k →
        exec .retire s = .next (placed (replyTo 3 h .ok .none .none)
          { accepted s rest h with
            regions := s.regions.set i (.live { r with
              staged := some { part := (r.staged.map (·.part)).getD r.committed, retire := true } }) }))
      ∧ (∀ r : ReservedRegion, s.region i = .reserved r → r.owner = k →
        ∃ t, exec .retire s = .next (placed (replyTo 3 h .ok .none .none) t)
          ∧ t = { accepted s rest h with regions := t.regions, clients := t.clients }
          ∧ t.region i = .free
          ∧ (∀ j, j ≠ i → t.region j =
              match s.region j with
              | .reserved q => if q.owner = k ∧ r.order < q.order then .reserved { q with order := q.order - 1 } else .reserved q
              | other => other)
          ∧ (t.client k = { s.client k with
              owned := (s.client k).owned - 1
              moves := ((s.client k).moves.filter fun v => decide (v.subject ≠ i)).map fun v =>
                { v with dead := v.dead || decide (placementReference v.placement = some i) } })
          ∧ ∀ j, j ≠ k → t.client j = { s.client j with
              moves := (s.client j).moves.map fun v =>
                { v with dead := v.dead || decide (placementReference v.placement = some i) } })

/-- A RESTACK that passes its checks appends a move, not dead, to its client's move list, and its answer carries the number
of moves (R44, R45, R46). The Lease Monitor has first taken what was handed to it (log 5). -/
def Obligations.RestackAppends : Prop :=
  ∀ (s : State) (m : List Word) (rest : List (List Word)) (i : RegionId) (p : Placement) (b : Band),
    let h := messageHeader m
    let k := h.client
    Takes s (some .restack) m rest → Passes s .restack h → (messageWord m 3).toNat % 256 = i.val →
    (match p with
      | .top => (messageWord m 3).toNat / 256 % 8 = 0
      | .bottom => (messageWord m 3).toNat / 256 % 8 = 1
      | .above r => (messageWord m 3).toNat / 256 % 8 = 2 ∧ (messageWord m 4).toNat % 256 = r.val
      | .below r => (messageWord m 3).toNat / 256 % 8 = 3 ∧ (messageWord m 4).toNat % 256 = r.val) →
    regionOwner (s.region i) = some k → regionBand (s.region i) = some b → retireMarked (s.region i) = false →
    (∀ r, placementReference p = some r → r ≠ i ∧ regionBand (s.region r) = some b
      ∧ (isLive (s.region r) = true ∨ regionOwner (s.region r) = some k)) →
    (s.client k).moves.length < 8 →
    exec .restack s = .next (placed (replyTo 4 h .ok .none (.moveCount ((s.client k).moves.length + 1)))
      { accepted s rest h with
        clients := s.clients.set k { s.client k with
          moves := (s.client k).moves ++ [{ subject := i, placement := p, dead := false }] } })

/-- The checks of a RESTACK in order, each a refusal that changes nothing else (R45, R79). The Lease Monitor has first taken
what was handed to it (log 5). -/
def Obligations.RestackRefused : Prop :=
  ∀ (s : State) (m : List Word) (rest : List (List Word)),
    let h := messageHeader m
    let k := h.client
    let subject := (messageWord m 3).toNat % 256
    let kind := (messageWord m 3).toNat / 256 % 8
    let reference := (messageWord m 4).toNat % 256
    let named := kind = 2 ∨ kind = 3
    let refused (code : AnswerCode) :=
      exec .restack s = .next (placed (replyTo 4 h code .none .none) (accepted s rest h))
    Takes s (some .restack) m rest → Passes s .restack h →
    (4 ≤ kind ∨ 64 ≤ subject ∨ (named ∧ 64 ≤ reference) → refused .badField)
    ∧ ∀ i r : RegionId, subject = i.val → kind < 4 → (named → reference = r.val) →
      (regionOwner (s.region i) ≠ some k → refused .badRegion)
      ∧ (regionOwner (s.region i) = some k →
        (retireMarked (s.region i) = true → refused .retiring)
        ∧ (retireMarked (s.region i) = false →
          (named → r = i ∨ s.region r = .free → refused .badRegion)
          ∧ (named → r ≠ i → s.region r ≠ .free →
            regionBand (s.region r) ≠ regionBand (s.region i) → refused .bandMismatch)
          ∧ (named → r ≠ i → regionBand (s.region r) = regionBand (s.region i) →
            (∃ q, s.region r = .reserved q ∧ q.owner ≠ k) → refused .badRegion)
          ∧ ((named → r ≠ i ∧ regionBand (s.region r) = regionBand (s.region i)
              ∧ (isLive (s.region r) = true ∨ regionOwner (s.region r) = some k)) →
            8 ≤ (s.client k).moves.length → refused .moveFull)))

/-- A DISCARD throws away the whole of its client's staging and is answered OK (R60). The Lease Monitor has first taken what
was handed to it (log 5). -/
def Obligations.DiscardEmptiesStaging : Prop :=
  ∀ (s : State) (m : List Word) (rest : List (List Word)),
    let h := messageHeader m
    BandListsHold s → Takes s (some .discard) m rest → Passes s .discard h →
    ∃ t, exec .discard s = .next (placed (replyTo 5 h .ok .none .none) t)
      ∧ t = { accepted s rest h with regions := t.regions, clients := t.clients }
      ∧ stagingDiscarded h.client s t
      ∧ ∀ j, t.client j = { s.client j with owned := (t.client j).owned, moves := (t.client j).moves }

/-- A PUBLISH with empty staging is answered OK at once, with no effective frame and no moves, in every Snapshot Unit state
(R62); with staging, while the unit is COPYING, it is parked without an answer (R63, R64, R35). A RENEW is answered OK, its
lease reload its one effect (R61). The Lease Monitor has first taken what was handed to it (log 5). -/
def Obligations.PublishWaitsOrAnswers : Prop :=
  (∀ (s : State) (m : List Word) (rest : List (List Word)),
    let h := messageHeader m
    let k := h.client
    let nothingStaged := (∀ i, isReservedOf k (s.region i) = false ∧ isStagedOf k (s.region i) = false)
      ∧ (s.client k).moves = []
    Takes s (some .publish) m rest → Passes s .publish h →
    (nothingStaged → exec .publish s = .next (placed (replyTo 6 h .ok .none (.publish none 0 0)) (accepted s rest h)))
    ∧ (¬ nothingStaged → isCopying s = true →
      exec .publish s = .next { accepted s rest h with
        parked := s.parked ++ [.publish k h.tag]
        clients := s.clients.set k { s.client k with state := .publishing, parkedEntry := true } }))
    ∧ ∀ (s : State) (m : List Word) (rest : List (List Word)),
      let h := messageHeader m
      Takes s (some .renew) m rest → Passes s .renew h →
      exec .renew s = .next (placed (replyTo 7 h .ok .none .none) (accepted s rest h))

/-! ### An applied publish -/

/-- A publish whose guard check fails is refused with GUARD_OVERLAP, naming the lowest-numbered overlapping region and the
lowest-numbered region that overlaps it, and keeps its staging (R65, R66). The Lease Monitor has first taken what was handed
to it (log 5). -/
def Obligations.PublishRefusedOnOverlap : Prop :=
  ∀ (s : State) (m : List Word) (rest : List (List Word)) (a b : RegionId),
    let h := messageHeader m
    let k := h.client
    Takes s (some .publish) m rest → Passes s .publish h → isCopying s = false → stagingEmpty k s = false →
    overlapNamed k s a b →
    exec .publish s = .next (placed (replyTo 6 h .guardOverlap .none (.overlap a b))
      { accepted s rest h with
        committedWork := false
        clients := s.clients.set k { s.client k with state := .active, parkedEntry := false } })

/-- A publish applied at once (R63, R65 to R72): the client's marked regions become FREE, its staged parts become committed
parts, its RESERVED regions become LIVE at the top of their band in creation order, the moves that are not skipped are
applied in order, and each region changed, inserted or moved is stamped with the effective frame: F while the unit is
WAITING, F + 1 otherwise. The client is ACTIVE with no staging, and the answer carries the frame and the two counts. All this
is `publishApplied`. The Lease Monitor has first taken what was handed to it (log 5). -/
def Obligations.PublishCommits : Prop :=
  ∀ (s : State) (m : List Word) (rest : List (List Word)),
    let h := messageHeader m
    let k := h.client
    Takes s (some .publish) m rest → Passes s .publish h → isCopying s = false → stagingEmpty k s = false →
    (∀ i j, ¬ clash k s i j) →
    ∃ t r,
      exec .publish s = .next (placed { kind := 6, header := some h, reply := r } t)
      ∧ t = { accepted s rest h with
          committedWork := false, regions := t.regions, bands := t.bands, clients := t.clients }
      ∧ publishApplied k (frameOfChange s) s t r

/-- What one move does to a band list (R49): the other ids keep their relative order, and the subject stands first for
TOP, last for BOTTOM, immediately before its reference for ABOVE, immediately after it for BELOW. -/
def Obligations.MovesPlaceSubject : Prop :=
  ∀ (x : RegionId) (l : List RegionId), l.Nodup → x ∈ l →
    (∀ p : Placement, (∀ r, placementReference p = some r → r ≠ x ∧ r ∈ l) →
      (placeSubject p x l).Nodup ∧ (placeSubject p x l).erase x = l.erase x ∧ ∀ i, i ∈ placeSubject p x l ↔ i ∈ l)
    ∧ (placeSubject .top x l).head? = some x ∧ (placeSubject .bottom x l).getLast? = some x
    ∧ ∀ r, r ≠ x → r ∈ l →
      (∃ before after, placeSubject (.above r) x l = before ++ x :: r :: after)
      ∧ ∃ before after, placeSubject (.below r) x l = before ++ r :: x :: after

/-! ### Queries -/

/-- A QUERY_REGION describes the record as it stands, its position in its band when it is LIVE, and whether the staged part
is shown, which it is to the owner alone; a region number above 63 is answered BAD_FIELD (R19, R40). The Lease Monitor has
first taken what was handed to it (log 5). -/
def Obligations.QueryRegionReports : Prop :=
  ∀ (s : State) (m : List Word) (rest : List (List Word)),
    let h := messageHeader m
    let n := (messageWord m 3).toNat % 256
    Takes s (some .queryRegion) m rest → Passes s .queryRegion h →
    (64 ≤ n → exec .queryRegion s = .next (placed (replyTo 8 h .badField .none .none) (accepted s rest h)))
    ∧ ∀ i : RegionId, n = i.val → ∃ r : RegionReport,
      exec .queryRegion s = .next (placed (replyTo 8 h .ok .none (.regionReport r)) (accepted s rest h))
      ∧ r.id = i ∧ r.region = s.region i ∧ (r.stagedShown = true ↔ regionOwner (s.region i) = some h.client)
      ∧ (∀ (g : LiveRegion) (before after : List RegionId), s.region i = .live g →
          s.bands.get g.band = before ++ i :: after → i ∉ before → r.position = before.length + 1)
      ∧ (isLive (s.region i) = false → r.position = 0)

/-- A QUERY_CLIENT reports the client record and the lease remaining as they stand when the answer is formed, after the
asker's own reload (R36, R95); a FRAME_START that falls within the piece is taken before or after the reload (R95; log 7), and
a counter that reaches 0 at it stops, its client joins the Lapse Pending Set and LEASE_LAPSE is set (R94).
Client 0 may name any client, another client itself alone. The Lease Monitor has first taken what was handed to it (log 5). -/
def Obligations.QueryClientReports : Prop :=
  ∀ (s : State) (m : List Word) (rest : List (List Word)) (race : QueryRace),
    let h := messageHeader m
    let n := (messageWord m 3).toNat % 256
    let u := settleLease s
    let stops (t : State) (j : ClientId) : Prop := (u.counter j).running = true ∧ (t.counter j).running = false
    let reload (j : ClientId) (c : LeaseCounter) : LeaseCounter :=
      if j = h.client ∧ c.running = true then { count := leasePeriod s j, running := true } else c
    Takes s (some .queryClient) m rest → Passes s .queryClient h →
    ∃ (t : State) (a : Answer), exec (.queryClient race) s = .next (placed a t)
      ∧ t = { u with requests := rest, counters := t.counters, lapsePending := t.lapsePending, flags := t.flags }
      ∧ t.flags = { s.flags with leaseLapse := t.flags.leaseLapse }
      ∧ (t.flags.leaseLapse = true ↔ s.flags.leaseLapse = true ∨ ∃ j, stops t j)
      ∧ (∀ j, t.counter j = match race with
          | .apart => reload j (u.counter j)
          | .beforeReload => reload j (decremented (u.counter j))
          | .afterReload => decremented (reload j (u.counter j)))
      ∧ (∀ j, j ∈ t.lapsePending ↔ j ∈ u.lapsePending ∨ stops t j)
      ∧ (16 ≤ n → a = replyTo 9 h .badField .none .none)
      ∧ ∀ k : ClientId, n = k.val →
        (h.client ≠ 0 → k ≠ h.client → a = replyTo 9 h .notPermitted .none .none)
        ∧ (h.client = 0 ∨ k = h.client → a = replyTo 9 h .ok .none (.clientReport
            { target := k, state := (s.client k).state, terms := (s.client k).terms, owned := (s.client k).owned
              leaseRemaining := (t.counter k).count, moveCount := (s.client k).moves.length
              parkedEntry := (s.client k).parkedEntry }))

/-! ### Clients -/

/-- A RESUME from a LAPSED client makes it ACTIVE and loads its counter with its lease period, after its own reload claim;
from any other client it is answered WRONG_STATE (R102, R93). The Lease Monitor takes what is handed to it in order (log 5),
and a FRAME_START within the piece before the load (R93; log 7). -/
def Obligations.ResumeReturns : Prop :=
  ∀ (s : State) (race : LeaseRace) (m : List Word) (rest : List (List Word)) (tm : Terms),
    let h := messageHeader m
    let k := h.client
    Takes s (some .resume) m rest → Passes s .resume h → (s.client k).terms = some tm →
    ∃ u, goesOnFrom race (accepted s rest h) u
    ∧ ((s.client k).state = .lapsed →
      ∃ t, exec (.resume race) s = .next (placed (replyTo 10 h .ok .none .none) t)
        ∧ t = { u with
            leaseInbox := t.leaseInbox, counters := t.counters, lapsePending := t.lapsePending
            clients := s.clients.set k { s.client k with state := .active } }
        ∧ leaseLoaded k tm.period u t)
    ∧ ((s.client k).state ≠ .lapsed →
      exec (.resume race) s = .next (placed (replyTo 10 h .wrongState .none .none) u))

/-- An OPEN_CLIENT with fields in range opens a CLOSED client with the message's class, quota and lease period, and loads its
counter; a client that is not CLOSED is answered WRONG_STATE, and a field out of range BAD_FIELD (R28, R29, R93). The Lease
Monitor takes what is handed to it in order (log 5), and a FRAME_START within the piece before the load (R93; log 7). -/
def Obligations.OpenClientOpens : Prop :=
  ∀ (s : State) (race : LeaseRace) (m : List Word) (rest : List (List Word)),
    let h := messageHeader m
    let n := (messageWord m 3).toNat % 256
    let c := (messageWord m 3).toNat / 256 % 8
    let quota := (messageWord m 4).toNat
    let period := (messageWord m 5).toNat
    let inRange := 1 ≤ n ∧ n ≤ 15 ∧ c ≤ 2 ∧ 1 ≤ quota ∧ quota ≤ 64 ∧ period ≤ 1023
    Takes s (some .openClient) m rest → Passes s .openClient h →
    ∃ u, goesOnFrom race (accepted s rest h) u
    ∧ (¬ inRange → exec (.openClient race) s = .next (placed (replyTo 11 h .badField .none .none) u))
    ∧ (inRange → ∀ (k : ClientId) (b : Band), n = k.val → c = bandNumber b →
      ((s.client k).state ≠ .closed →
        exec (.openClient race) s = .next (placed (replyTo 11 h .wrongState .none .none) u))
      ∧ ((s.client k).state = .closed →
        ∃ t, exec (.openClient race) s = .next (placed (replyTo 11 h .ok .none .none) t)
          ∧ t = { u with
              leaseInbox := t.leaseInbox, counters := t.counters, lapsePending := t.lapsePending
              clients := s.clients.set k { state := .active, terms := some { cls := b, quota := quota, period := period }
                                           owned := 0, moves := [], parkedEntry := false } }
          ∧ leaseLoaded k period u t))

/-- A CLOSE_CLIENT taken while the unit is not COPYING, with nothing parked, frees every region of its target, staged and
LIVE, stops the target's counter, discards its notice and closes it, and its answer carries the effective frame (R31, R33,
R43, R48, R72, R96). A target outside 1 to 15 is answered BAD_FIELD, a CLOSED or CLOSING one WRONG_STATE (R30). The Lease
Monitor takes what is handed to it in order (log 5), and a FRAME_START within the piece before the stop, so that a notice it
raises for the target is discarded and LEASE_LAPSE stays (R31, R94; log 7). -/
def Obligations.CloseAppliedAtOnce : Prop :=
  ∀ (s : State) (race : LeaseRace) (m : List Word) (rest : List (List Word)),
    let h := messageHeader m
    let n := (messageWord m 3).toNat % 256
    let eff : Frame := if s.snapState = .waiting then s.snapFrame else s.snapFrame + 1
    Takes s (some .closeClient) m rest → Passes s .closeClient h →
    ∃ u, goesOnFrom race (accepted s rest h) u
    ∧ (n = 0 ∨ 16 ≤ n → exec (.closeClient race) s = .next (placed (replyTo 12 h .badField .none .none) u))
    ∧ ∀ k : ClientId, n = k.val → k ≠ 0 →
      ((s.client k).state = .closed ∨ (s.client k).state = .closing →
        exec (.closeClient race) s = .next (placed (replyTo 12 h .wrongState .none .none) u))
      ∧ ((s.client k).state ≠ .closed → (s.client k).state ≠ .closing → isCopying s = false → s.parked = [] →
        ∃ t, exec (.closeClient race) s = .next (placed (replyTo 12 h .ok .none (.effective eff)) t)
          ∧ t = { u with
              leaseInbox := t.leaseInbox, counters := t.counters, lapsePending := t.lapsePending, committedWork := false
              regions := t.regions, bands := t.bands, clients := t.clients }
          ∧ leaseStopped k u t
          ∧ (∀ i, t.region i = if regionOwner (s.region i) = some k then .free else s.region i)
          ∧ (∀ b, t.bands.get b = (s.bands.get b).filter fun i => decide (regionOwner (s.region i) ≠ some k))
          ∧ ∀ j, t.client j =
              if j = k then { state := .closed, terms := none, owned := 0, moves := [], parkedEntry := false }
              else { s.client j with moves := (s.client j).moves.map fun v =>
                { v with dead := v.dead || (placementReference v.placement).any fun r =>
                    decide (regionOwner (s.region r) = some k) } })

/-- A CLOSE_CLIENT taken while the unit is COPYING discards its target's staging, stops its counter, discards its notice,
makes it CLOSING and parks (R31). When the target's publish is parked, that entry leaves the list and is answered CANCELLED
with cause CLOSE before the rest; when the Answer Queue is full the answer is held and the rest waits with it (R32, R82;
log 18). The Lease Monitor takes what is handed to it in order (log 5), and a FRAME_START within the piece before the stop, so
that a notice it raises for the target is discarded and LEASE_LAPSE stays (R31, R94; log 7). -/
def Obligations.CloseParks : Prop :=
  ∀ (s : State) (race : LeaseRace) (m : List Word) (rest : List (List Word)) (k : ClientId),
    let h := messageHeader m
    let closing (c : Client) := { c with state := ClientState.closing, parkedEntry := true }
    BandListsHold s → Takes s (some .closeClient) m rest → Passes s .closeClient h →
    (messageWord m 3).toNat % 256 = k.val → k ≠ 0 → (s.client k).state ≠ .closed → (s.client k).state ≠ .closing →
    isCopying s = true →
    ∃ u, goesOnFrom race (accepted s rest h) u
    ∧ ((∀ tag, ParkedEntry.publish k tag ∉ s.parked) →
      ∃ t, exec (.closeClient race) s = .next t
        ∧ t = { u with
            leaseInbox := t.leaseInbox, counters := t.counters, lapsePending := t.lapsePending
            parked := s.parked ++ [.close k h.tag], regions := t.regions, clients := t.clients }
        ∧ leaseStopped k u t
        ∧ stagingDiscarded k s t
        ∧ ∀ j, t.client j = { (if j = k then closing (s.client j) else s.client j) with
            owned := (t.client j).owned, moves := (t.client j).moves })
    ∧ ∀ (before after : List ParkedEntry) (tag : Tag), s.parked = before ++ .publish k tag :: after →
      (∀ g, ParkedEntry.publish k g ∉ before ++ after) →
      ∃ t, exec (.closeClient race) s = .next t
        ∧ stagingDiscarded k s t
        ∧ (s.answers.length < 16 →
            t = { u with
              leaseInbox := t.leaseInbox, counters := t.counters, lapsePending := t.lapsePending
              parked := before ++ after ++ [.close k h.tag]
              answers := s.answers ++ [replyTo 6 { client := k, tag := tag } .cancelled .close .none]
              regions := t.regions, clients := t.clients }
            ∧ leaseStopped k u t
            ∧ ∀ j, t.client j = { (if j = k then closing (s.client j) else s.client j) with
                owned := (t.client j).owned, moves := (t.client j).moves })
        ∧ (16 ≤ s.answers.length →
            t = { u with
              parked := before ++ after
              engine := .stalled (replyTo 6 { client := k, tag := tag } .cancelled .close .none)
                (.closeTail k h.tag true)
              regions := t.regions, clients := t.clients }
            ∧ ∀ j, t.client j = { s.client j with
                parkedEntry := if j = k then false else (s.client j).parkedEntry
                owned := (t.client j).owned, moves := (t.client j).moves })

/-- A CLEAR_ALL taken while the unit is COPYING is parked (R89); otherwise it is applied at once: every record FREE, every
list empty, clients 1 to 15 CLOSED and their counters STOPPED at 0, the Lapse Pending Set empty, client 0 with its state and
terms, and nothing else changed, with the effective frame in the answer (R37, R52, R72, R90). The Lease Monitor takes what is
handed to it in order (log 5), and a FRAME_START within the piece before the stops, so that the notices it raises are emptied
away and LEASE_LAPSE stays (R90, R94; log 7). -/
def Obligations.ClearAllClears : Prop :=
  ∀ (s : State) (race : LeaseRace) (m : List Word) (rest : List (List Word)),
    let h := messageHeader m
    let eff : Frame := if s.snapState = .waiting then s.snapFrame else s.snapFrame + 1
    Takes s (some .clearAll) m rest → Passes s .clearAll h →
    ∃ u, goesOnFrom race (accepted s rest h) u
    ∧ (isCopying s = true →
      exec (.clearAll race) s = .next { u with parked := s.parked ++ [.clearAll h.tag] })
    ∧ (isCopying s = false →
      ∃ t, exec (.clearAll race) s = .next (placed (replyTo 13 h .ok .none (.effective eff)) t)
        ∧ t = { u with
            committedWork := false
            regions := Vector.replicate 64 .free
            bands := { guarded := [], elevated := [], ordinary := [] }
            clients := Vector.ofFn fun k => if k = 0 then { s.client k with owned := 0, moves := [] } else
              { state := .closed, terms := none, owned := 0, moves := [], parkedEntry := false }
            leaseInbox := t.leaseInbox, counters := t.counters, lapsePending := t.lapsePending }
        ∧ leasesCleared u t)

/-- A SET_PANEL with a size in range replaces the panel configuration when no region is RESERVED or LIVE, whatever the state
of the Snapshot Unit, and changes no record and no band list; it is never parked, and its answer is OK with no fields (R109).
A size out of range is answered BAD_FIELD, and a table in use PANEL_IN_USE (R108). The Lease Monitor has first taken what was
handed to it (log 5). -/
def Obligations.SetPanelSets : Prop :=
  ∀ (s : State) (m : List Word) (rest : List (List Word)),
    let h := messageHeader m
    let w := (messageWord m 3).toNat
    let t := (messageWord m 4).toNat
    let inRange := (w = 0 ∧ t = 0) ∨ (16 ≤ w ∧ w ≤ 2048 ∧ 16 ≤ t ∧ t ≤ 1536)
    Takes s (some .setPanel) m rest → Passes s .setPanel h →
    (¬ inRange → exec .setPanel s = .next (placed (replyTo 14 h .badField .none .none) (accepted s rest h)))
    ∧ (inRange → (∃ i, s.region i ≠ .free) →
      exec .setPanel s = .next (placed (replyTo 14 h .panelInUse .none .none) (accepted s rest h)))
    ∧ (inRange → (∀ i, s.region i = .free) →
      exec .setPanel s = .next (placed (replyTo 14 h .ok .none .none)
        { accepted s rest h with panel := { width := w, height := t } }))

/-! ### The engine's other work -/

/-- HELD_ANSWER_PLACEMENT (R82): an engine whose held answer has been placed goes on with the rest of its piece: the later
steps of a close that parks (R31, R32), or the next entry of a copy-end application, which is the command
COPY_END_APPLICATION (R87). A STALLED engine that finds room places its answer first; while the queue is full it keeps it.
That the read places the answer and this command goes on is log 13. -/
def Obligations.HeldAnswerPlaced : Prop :=
  ∀ s : State, s.resetLow = false →
    let parks (k : ClientId) (tag : Tag) (u t : State) : Prop :=
      leaseStopped k u t ∧ t = { u with
        engine := .free, parked := u.parked ++ [.close k tag]
        leaseInbox := t.leaseInbox, counters := t.counters, lapsePending := t.lapsePending
        clients := u.clients.set k { u.client k with state := .closing, parkedEntry := true } }
    (∀ k tag, s.engine = .working (.closeTail k tag true) →
      ∃ t, exec .heldAnswerPlacement s = .next t ∧ parks k tag s t)
    ∧ (s.engine = .working .application → exec .heldAnswerPlacement s = exec .copyEndApplication s)
    ∧ (s.engine = .free → exec .heldAnswerPlacement s = .next s)
    ∧ ∀ (a : Answer) (r : Resume), s.engine = .stalled a r →
      (16 ≤ s.answers.length → exec .heldAnswerPlacement s = .next s)
      ∧ (s.answers.length < 16 →
        (r = .finish → exec .heldAnswerPlacement s = .next { s with answers := s.answers ++ [a], engine := .free })
        ∧ (∀ k tag, r = .closeTail k tag true →
          ∃ t, exec .heldAnswerPlacement s = .next t ∧ parks k tag { s with answers := s.answers ++ [a] } t)
        ∧ (r = .application → exec .heldAnswerPlacement s =
          exec .copyEndApplication { s with answers := s.answers ++ [a], engine := .working .application }))

/-- LAPSE_NOTICE (R97, R98, R99): the lowest-numbered client of the Lapse Pending Set leaves it. If it is ACTIVE or
PUBLISHING its staging is discarded and it becomes LAPSED, and a parked publish of it leaves the Parked List and is answered
CANCELLED with cause LAPSE; in any other state nothing else changes. The Lease Monitor has first taken what was handed to it
(log 5). -/
def Obligations.LapseNoticeTaken : Prop :=
  ∀ (s : State) (k : ClientId) (others : List ClientId),
    let u := settleLease s
    BandListsHold s → ParkedListHolds s → s.resetLow = false → s.engine = .free → s.copyEndDue = false →
    u.lapsePending = k :: others → k ∉ others →
    ((s.client k).state ≠ .active → (s.client k).state ≠ .publishing →
      exec .lapseNotice s = .next { u with lapsePending := others })
    ∧ ((s.client k).state = .active ∨ (s.client k).state = .publishing →
      ∃ t, stagingDiscarded k s t
        ∧ (∀ j, t.client j = { s.client j with
            state := if j = k then .lapsed else (s.client j).state
            parkedEntry := if j = k then false else (s.client j).parkedEntry
            owned := (t.client j).owned, moves := (t.client j).moves })
        ∧ ((s.client k).parkedEntry = false →
            t = { u with lapsePending := others, regions := t.regions, clients := t.clients }
            ∧ exec .lapseNotice s = .next t)
        ∧ ∀ (before after : List ParkedEntry) (tag : Tag), s.parked = before ++ .publish k tag :: after →
            t = { u with
              lapsePending := others, parked := before ++ after, regions := t.regions, clients := t.clients }
            ∧ exec .lapseNotice s = .next (placed (replyTo 6 { client := k, tag := tag } .cancelled .lapse .none) t))

/-- COPY_END_APPLICATION (R82, R84, R86, R87). The engine takes it when it is FREE and one is due, the Lease Monitor having
first taken what was handed to it (log 5), and applies the first entry of the Parked List; while it is WORKING on the
application the next such command applies the next entry, so that other events fall between two entries (log 8). Each entry
leaves the list, is applied to the tables as the entries before it left them, with the effective frame of its own moment, as
`entryApplied` says, and its answer is given, or held when the Answer Queue holds 16. After the last answer, or with an empty
list, the copy-end indication is lowered and the engine is FREE. -/
def Obligations.CopyEndApplied : Prop :=
  ∀ s : State, s.resetLow = false → (s.engine = .free ∧ s.copyEndDue = true) ∨ s.engine = .working .application →
    let u := if s.engine = .free then settleLease s else s
    (s.parked = [] → exec .copyEndApplication s = .next { u with copyEndDue := false, engine := .free })
    ∧ ∀ (e : ParkedEntry) (later : List ParkedEntry), s.parked = e :: later →
      ∃ t a, exec .copyEndApplication s = .next (answered a .application t)
        ∧ t = { u with
            engine := .working .application, parked := later
            regions := t.regions, bands := t.bands, clients := t.clients
            leaseInbox := t.leaseInbox, counters := t.counters, lapsePending := t.lapsePending }
        ∧ entryApplied e u t a

/-! ### Leases -/

/-- What the Lease Monitor does with the oldest message handed over by the engine (R93, R95, R96): a claim sets a RUNNING
counter to the lease period; a load sets the count and runs the counter if the period is nonzero; a stop stops the counter
at 0 and takes the client out of the Lapse Pending Set. The order of the messages is log 5, and so is that a run takes loads
and stops within the engine's pieces, so that LEASE_LOAD and LEASE_STOP find a message of their kind in no run (log 6). That a
claim leaves a client of lease period 1 at count 1, from which the next decrement reaches 0, is log 25. -/
def Obligations.LeaseMessagesTaken : Prop :=
  ∀ (s : State) (rest : List LeaseMsg) (k : ClientId), s.resetLow = false →
    (s.leaseInbox = .claim k :: rest → ∃ t, exec .reloadClaim s = .next t
      ∧ t = { s with counters := t.counters, leaseInbox := rest }
      ∧ ∀ j, t.counter j = if j = k ∧ (s.counter k).running = true then { count := leasePeriod s k, running := true }
          else s.counter j)
    ∧ (∀ p, s.leaseInbox = .load k p :: rest → ∃ t, exec .leaseLoad s = .next t
      ∧ t = { s with counters := t.counters, leaseInbox := rest }
      ∧ ∀ j, t.counter j = if j = k then { count := p, running := decide (p ≠ 0) } else s.counter j)
    ∧ (s.leaseInbox = .stop k :: rest → ∃ t, exec .leaseStop s = .next t
      ∧ t = { s with counters := t.counters, lapsePending := t.lapsePending, leaseInbox := rest }
      ∧ (∀ j, t.counter j = if j = k then { count := 0, running := false } else s.counter j)
      ∧ ∀ j, j ∈ t.lapsePending ↔ j ∈ s.lapsePending ∧ j ≠ k)

/-- When the Lease Monitor takes a FRAME_START each RUNNING counter falls by 1 and a STOPPED one does not change; those whose
count reaches 0 at this decrement stop, their clients join the Lapse Pending Set and LEASE_LAPSE is set (R94). After it no
counter is RUNNING at 0 (R92), so LEASE_EXPIRY, the second row the table gives R94, has nothing left to do (log 6). A count of 1
that a claim has just set, in a client of lease period 1, is no exception (R95; log 25). -/
def Obligations.LeaseCountsAndExpires : Prop :=
  ∀ s : State, s.resetLow = false →
    (∃ t, exec .leaseFrameStart s = .next t
      ∧ t = { s with
          counters := t.counters, lapsePending := t.lapsePending
          flags := { s.flags with leaseLapse := (s.flags.leaseLapse
            || decide (∃ j, (s.counter j).running = true ∧ (s.counter j).count ≤ 1)) } }
      ∧ (∀ j, t.counter j = decremented (s.counter j))
      ∧ (∀ j, j ∈ t.lapsePending ↔ j ∈ s.lapsePending ∨ ((s.counter j).running = true ∧ (s.counter j).count ≤ 1))
      ∧ exec .leaseExpiry t = .next t)
    ∧ ∃ t, exec .leaseExpiry s = .next t
      ∧ t = { s with
          counters := t.counters, lapsePending := t.lapsePending
          flags := { s.flags with leaseLapse := (s.flags.leaseLapse
            || decide (∃ j, (s.counter j).running = true ∧ (s.counter j).count = 0)) } }
      ∧ (∀ j, t.counter j = if (s.counter j).running = true ∧ (s.counter j).count = 0
          then { count := 0, running := false } else s.counter j)
      ∧ ∀ j, j ∈ t.lapsePending ↔ j ∈ s.lapsePending ∨ ((s.counter j).running = true ∧ (s.counter j).count = 0)

/-! ### Frame timing and the Snapshot Unit -/

/-- A FRAME_START raises the frame counter by 1, modulo 65536, and zeroes the line counter (R104). At the Snapshot Unit it
advances F and makes the unit WAITING; a copy in progress is abandoned, its entries discarded and a copy-end application
due; a READY list is discarded (R114, R115, R116, R117). That a discarded FILLING list keeps its tag and its panel size is the
model's choice (log 15). -/
def Obligations.FrameStartTaken : Prop :=
  (∀ s : State, s.resetLow = false →
      exec .frameStart s = .next { s with frameCounter := s.frameCounter + 1, lineCounter := 0 })
    ∧ ∀ s : State, s.resetLow = false → ∃ t, exec .snapshotFrameStart s = .next t
      ∧ t = { s with
          snapFrame := s.snapFrame + 1, snapState := .waiting, listA := t.listA, listB := t.listB
          copyEndDue := s.copyEndDue || isCopying s }
      ∧ t.scanList s.showing = s.scanList s.showing
      ∧ t.scanList (otherList s.showing) =
          if isCopying s = true ∨ s.snapState = .ready then
            { s.scanList (otherList s.showing) with entries := [] }
          else s.scanList (otherList s.showing)

/-- COPY_START (R118, R119): in WAITING, with no copy-end application due, no committed work indicated and the FILLING list
not pinned, the unit becomes COPYING; the FILLING list takes the frame number, the panel configuration and no entry, and
the latch takes the clients that are not LAPSED, CLOSING ones among them (log 24). Otherwise no copy starts (log 2). -/
def Obligations.CopyStarts : Prop :=
  ∀ s : State, s.resetLow = false →
    let starts := s.snapState = .waiting ∧ s.copyEndDue = false ∧ s.committedWork = false
      ∧ (s.scanList (otherList s.showing)).pinCount = 0
    (starts → ∃ t visible, exec .copyStart s = .next t
      ∧ t = { s with
          snapState := .copying { visible := visible, panel := s.panel }, listA := t.listA, listB := t.listB }
      ∧ (∀ k, k ∈ visible ↔ (s.client k).state ≠ .lapsed)
      ∧ t.scanList s.showing = s.scanList s.showing
      ∧ t.scanList (otherList s.showing) =
          { s.scanList (otherList s.showing) with tag := s.snapFrame, panel := s.panel, entries := [] })
    ∧ (¬ starts → exec .copyStart s = .next s)

/-- COPY_COMPLETE (R111, R120, R121, R86): the FILLING list holds one entry for each region of the three band lists, in the
stacking order, that is LIVE with committed visible YES and an owner in the latched set; the unit is READY and a copy-end
application falls due. Regions of a CLOSING client are written as R120 says (log 24). -/
def Obligations.CopyCompletes : Prop :=
  ∀ (s : State) (latch : Latch), s.resetLow = false → s.snapState = .copying latch →
    ∃ t, exec .copyComplete s = .next t
      ∧ t = { s with snapState := .ready, copyEndDue := true, listA := t.listA, listB := t.listB }
      ∧ t.scanList s.showing = s.scanList s.showing
      ∧ t.scanList (otherList s.showing) =
          { s.scanList (otherList s.showing) with entries := (t.scanList (otherList s.showing)).entries }
      ∧ (t.scanList (otherList s.showing)).entries.map (·.id) =
          (s.bands.guarded ++ s.bands.elevated ++ s.bands.ordinary).filter (fun i =>
            match s.region i with
            | .live g => g.committed.appearance.visible && decide (g.owner ∈ latch.visible)
            | _ => false)
      ∧ ∀ e ∈ (t.scanList (otherList s.showing)).entries, ∃ g, s.region e.id = .live g ∧ e.owner = g.owner
          ∧ e.band = g.band ∧ e.geometry = g.committed.geometry ∧ e.source = g.committed.source
          ∧ e.opacity = g.committed.appearance.opacity ∧ e.touch = g.committed.appearance.touch

/-! ### Lines and spans -/

/-- A LINE_START takes its number from the line counter, which then rises by 1 up to 4095 (R105). A build in flight is
abandoned with LINE_DROPPED set (R140). At line 0 a READY list is promoted and the unit becomes IDLE, and a WAITING or
COPYING unit sets SNAPSHOT_LATE (R122, R123). The build begins when the SHOWING list has the line (R127, R128). -/
def Obligations.LineStartTaken : Prop :=
  ∀ s : State, s.resetLow = false →
    let n := s.lineCounter
    let promoted := n = 0 ∧ s.snapState = .ready
    let late := n = 0 ∧ (s.snapState = .waiting ∨ isCopying s = true)
    let showing := if promoted then otherList s.showing else s.showing
    let p := (s.scanList showing).panel
    exec .lineStart s = .next { s with
      lineCounter := min (n + 1) 4095
      showing := showing
      snapState := if promoted then .idle else s.snapState
      flags := { s.flags with
        lineDropped := s.flags.lineDropped || decide (s.builder ≠ .idle)
        snapshotLate := s.flags.snapshotLate || decide late }
      builder := if ¬ (p.width = 0 ∧ p.height = 0) ∧ n < p.height then .building n showing else .idle }

/-- BUILD_COMPLETE (R138, R139, R141, R142, R143, R145): the finished line joins the Span Queue and the builder is IDLE; an
overflow line sets SPAN_OVERFLOW. An IDLE port begins the line. A full queue first loses its older line, with LINE_DROPPED
set: the port, which was sending that line, finishes the item in hand and then sends LINE_ABORT for it. -/
def Obligations.BuildCompletes : Prop :=
  ∀ (s : State) (n : Nat) (list : ListName), s.resetLow = false → PortHolds s → s.builder = .building n list →
    let l := buildLine (s.scanList list) n
    let flags := { s.flags with spanOverflow := s.flags.spanOverflow || l.overflow }
    (s.spanPort = .idle → exec .buildComplete s = .next { s with
      builder := .idle, flags := flags, spanQueue := [l]
      spanPort := .sending { item := lineHeadOf l, sent := 0, later := l.spans.flatMap spanItems } })
    ∧ (s.spanPort ≠ .idle → s.spanQueue.length < 2 → exec .buildComplete s = .next { s with
      builder := .idle, flags := flags, spanQueue := s.spanQueue ++ [l] })
    ∧ ∀ a b, s.spanQueue = [a, b] →
      exec .buildComplete s = .next { s with
        builder := .idle, flags := { flags with lineDropped := true }, spanQueue := [b, l]
        spanPort := match s.spanPort with
          | .sending p => .aborting { p with later := [.lineAbort a.number a.tag] }
          | port => port }

/-- SPAN_WORD_ACCEPTED (R143, R144, R145): the next word of the item in hand is offered, then the first word of the next
item; after the last word of a line that line leaves the queue, and after a line or a LINE_ABORT the port begins the older
line or is IDLE. With nothing on offer nothing changes. -/
def Obligations.SpanWordTaken : Prop :=
  ∀ s : State, s.resetLow = false →
    let begin (queue : List Line) : SpanPort := match queue with
      | [] => .idle
      | l :: _ => .sending { item := lineHeadOf l, sent := 0, later := l.spans.flatMap spanItems }
    (s.spanPort = .idle → spData s = none ∧ exec .spanWordAccepted s = .next s)
    ∧ ∀ (p : SpanPlace) (aborting : Bool), s.spanPort = (if aborting then .aborting p else .sending p) →
      p.sent < (itemWords p.item).length →
      spData s = (itemWords p.item)[p.sent]?
      ∧ (p.sent + 1 < (itemWords p.item).length → exec .spanWordAccepted s = .next { s with
          spanPort := if aborting then .aborting { p with sent := p.sent + 1 } else .sending { p with sent := p.sent + 1 } })
      ∧ (p.sent + 1 = (itemWords p.item).length →
        (∀ it later, p.later = it :: later → exec .spanWordAccepted s = .next { s with
          spanPort := if aborting then .aborting { item := it, sent := 0, later := later }
            else .sending { item := it, sent := 0, later := later } })
        ∧ (p.later = [] → exec .spanWordAccepted s = .next { s with
          spanQueue := if aborting then s.spanQueue else s.spanQueue.tail
          spanPort := begin (if aborting then s.spanQueue else s.spanQueue.tail) }))

/-- The span list of a line covers each pixel of the panel row once, from left to right (R132, R139). The full span list,
before any overflow, gives each pixel its owner and its underlay, and neighbouring spans differ in one of them (R130,
R131, R132). The owner is the first entry that covers the pixel; the underlay of a KEYED owner is the first OPAQUE entry
after it that covers the pixel. The fields of a span come from its owner and its underlay at its first pixel (R133, R134,
R18), and a line is sent as its LINE_HEAD, then each SPAN with its UNDERLAY after it (R144). -/
def Obligations.LinesCoverTheRow : Prop :=
  (∀ (l : ScanList) (n : Nat),
    spansTile 0 l.panel.width (buildLine l n).spans
    ∧ (fullRuns l n).flatMap (fun r => List.replicate r.length r.pixel) =
        (List.range l.panel.width).map (fun p => pixelAt l.entries p n)
    ∧ (fullRuns l n).IsChain (fun a b => a.pixel ≠ b.pixel ∧ b.startX = a.startX + a.length)
    ∧ (∀ p, (∀ e ∈ l.entries, e.covers p n = false) → pixelAt l.entries p n = { owner := none, underlay := none })
    ∧ ∀ p (e : Entry) (before after : List Entry), l.entries = before ++ e :: after →
        (∀ f ∈ before, f.covers p n = false) → e.covers p n = true →
        (pixelAt l.entries p n).owner = some e
        ∧ (e.opacity = .solid → (pixelAt l.entries p n).underlay = none)
        ∧ (e.opacity = .keyed → (∀ f ∈ after, f.covers p n = true → f.opacity = .keyed) →
            (pixelAt l.entries p n).underlay = some none)
        ∧ (e.opacity = .keyed → ∀ (u : Entry) (between under : List Entry), after = between ++ u :: under →
            (∀ f ∈ between, f.covers p n = true → f.opacity = .keyed) → u.covers p n = true → u.opacity = .solid →
            (pixelAt l.entries p n).underlay = some (some u)))
  ∧ (∀ (l : ScanList) (n : Nat), ∃ spanOf : Run → Span,
    buildLine l n = { number := n, tag := l.tag, overflow := decide (32 < (fullRuns l n).length)
                      spans := (lineRuns l n).map spanOf }
    ∧ ∀ r : Run,
      (r.pixel.owner = none → spanOf r = { startX := r.startX, length := r.length, content := none })
      ∧ ∀ e, r.pixel.owner = some e → spanOf r = {
          startX := r.startX, length := r.length
          content := some {
            id := e.id, owner := e.owner, plane := e.source.plane, wrapWidth := e.source.wrapWidth
            startColumn := (e.source.originColumn + (r.startX - e.geometry.x)) % e.source.wrapWidth
            row := (e.source.originRow + (n - e.geometry.y)) % e.source.wrapHeight
            underlay := match r.pixel.underlay with
              | none => none
              | some none => some none
              | some (some f) => some (some {
                  id := f.id, plane := f.source.plane, wrapWidth := f.source.wrapWidth
                  startColumn := (f.source.originColumn + (r.startX - f.geometry.x)) % f.source.wrapWidth
                  row := (f.source.originRow + (n - f.geometry.y)) % f.source.wrapHeight }) } })
  ∧ (∀ l : Line, lineItems l = .lineHead l.number l.tag l.spans.length l.overflow :: l.spans.flatMap spanItems)
  ∧ ∀ sp : Span, spanItems sp = match sp.content.bind (·.underlay) with
    | none => [.span sp]
    | some u => [.span sp, .underlay u]

/-- A line with more than 32 spans is an overflow line (R136). Its full span list falls into protected spans and the stretches
between them; with at most 4 protected spans its span list has exactly 32: the protected spans all stay, and the stretches
are filled from left to right as `stretchesFilled` says, each keeping its leftmost candidates with one BACKGROUND span over
the rest (R136, R137). A line of 32 spans or fewer keeps them all. On a list that holds what every list does
(`ScanListsHold`), each GUARDED entry that covers the line gives exactly one span, over its whole width, these are the
protected spans, and they are at most 4 (R135). -/
def Obligations.OverflowLinesCut : Prop :=
  ∀ (l : ScanList) (n : Nat),
    ((buildLine l n).overflow = true ↔ 32 < (fullRuns l n).length)
    ∧ ((fullRuns l n).length ≤ 32 → lineRuns l n = fullRuns l n)
    ∧ (32 < (fullRuns l n).length → ((fullRuns l n).filter protectedRun).length ≤ 4 →
        (buildLine l n).spans.length = 32
        ∧ (lineRuns l n).filter protectedRun = (fullRuns l n).filter protectedRun
        ∧ (segments (fullRuns l n)).flatMap segmentRuns = fullRuns l n ∧ segmentsHold (segments (fullRuns l n))
        ∧ stretchesFilled (32 - ((fullRuns l n).filter protectedRun).length) (segments (fullRuns l n)) (lineRuns l n))
    ∧ (ListHolds l → n < l.panel.height →
        ((fullRuns l n).filter protectedRun).length ≤ 4
        ∧ ∀ r : Run, r ∈ fullRuns l n ∧ protectedRun r = true ↔
          ∃ e ∈ l.entries, e.band = .guarded ∧ e.geometry.y ≤ n ∧ n < e.geometry.y + e.geometry.height
            ∧ r = { startX := e.geometry.x, length := e.geometry.width, pixel := { owner := some e, underlay := none } })

/-! ### Point lookup -/

/-- The bytes of the Lookup Port, at an edge of LK_CLK with LK_SEL high; with LK_SEL low it takes none (R149). A byte write
joins the assembly; the fifth completes a point, stamped with the frame and line counters, which joins the Point Queue or,
when that holds 4, is dropped with LOOKUP_OVERRUN set (R150, R151, R184). LK_SEL falling discards a partly written point
(R150); its rising changes no state of the port. While LK_SEL is high LK_DO carries the byte a read would take, and while it
is low nothing (R149). A byte read takes the byte at the read position of the head answer, and the eighteenth removes it
(R161); with no answer waiting it takes 255 and changes nothing (R162). The field `lkByte`, and the operand of LK_SEL_FALL
that gives the level, are the model's (log 16). -/
def Obligations.LookupPortBytes : Prop :=
  (∀ (s : State) (b : Byte), s.resetLow = false → s.lkSel = true → s.pointBytes.length < 4 →
      exec (.pointByteWrite b) s = .next { s with pointBytes := s.pointBytes ++ [b] })
    ∧ (∀ (s : State) (b0 b1 b2 b3 b4 : Byte), s.resetLow = false → s.lkSel = true → s.pointBytes = [b0, b1, b2, b3] →
      exec (.pointByteWrite b4) s = .next (
        let u := { s with pointBytes := [] }
        if s.points.length < 4 then
          { u with points := s.points ++ [{
            touchId := b0.toNat % 16, x := b1.toNat * 256 + b2.toNat, y := b3.toNat * 256 + b4.toNat
            captureFrame := s.frameCounter, captureLine := s.lineCounter }] }
        else { u with flags := { s.flags with lookupOverrun := true } }))
    ∧ (∀ s : State, s.lkSel = false → lkDo s = none
      ∧ (∀ b, exec (.pointByteWrite b) s = .next s) ∧ exec .lookupAnswerRead s = .next s)
    ∧ (∀ s : State, exec (.lkSelFall .low) s = .next { s with lkSel := false, pointBytes := [] })
    ∧ (∀ s : State, exec (.lkSelFall .high) s = .next { s with lkSel := true })
    ∧ (∀ (s : State) (a : LookupAnswer) (rest : List LookupAnswer) (b : Byte), s.lkSel = true →
      s.lookupAnswers = a :: rest → (lookupAnswerBytes a)[s.lookupRead]? = some b →
      lkDo s = some b
      ∧ (s.resetLow = false → exec .lookupAnswerRead s = .next (
        let u := { s with lkByte := some b }
        if s.lookupRead = 17 then { u with lookupAnswers := rest, lookupRead := 0 }
        else { u with lookupRead := s.lookupRead + 1 })))
    ∧ ∀ s : State, s.lkSel = true → s.lookupAnswers = [] →
      lkDo s = some 255 ∧ (s.resetLow = false → exec .lookupAnswerRead s = .next { s with lkByte := some 255 })

/-- An IDLE Lookup Engine takes the oldest point when the Lookup Answer Queue holds fewer than 4 answers, and pins the
SHOWING list (R113, R153); otherwise it takes none (log 2). At completion the answer joins the queue, the pin is released
and the engine is IDLE (R154, R159). -/
def Obligations.LookupTakenAndCompleted : Prop :=
  (∀ s : State, s.resetLow = false →
      (∀ (p : Point) (rest : List Point), s.lookup = .idle → s.points = p :: rest → s.lookupAnswers.length < 4 →
        ∃ t, exec .lookupTake s = .next t
          ∧ t = { s with points := rest, lookup := .looking p s.showing, listA := t.listA, listB := t.listB }
          ∧ t.scanList s.showing = { s.scanList s.showing with pinCount := 1 }
          ∧ t.scanList (otherList s.showing) = s.scanList (otherList s.showing))
      ∧ (s.lookup ≠ .idle ∨ s.points = [] ∨ 4 ≤ s.lookupAnswers.length → exec .lookupTake s = .next s))
    ∧ ∀ (s : State) (p : Point) (n : ListName), s.resetLow = false → s.lookup = .looking p n →
      ∃ t, exec .lookupComplete s = .next t
        ∧ t = { s with
            lookup := .idle, listA := t.listA, listB := t.listB
            lookupAnswers := s.lookupAnswers ++ [{
              touchId := p.touchId, result := lookupResult (s.scanList n) p.x p.y, captureFrame := p.captureFrame
              captureLine := p.captureLine, listTag := (s.scanList n).tag }] }
        ∧ t.scanList n = { s.scanList n with pinCount := 0 } ∧ t.scanList (otherList n) = s.scanList (otherList n)

/-- The result of a lookup (R155 to R158, R18): OUTSIDE off the list's panel; BACKGROUND where no entry covers the point;
else from the first entry that covers it, ABSORBED or a HIT with the local and source coordinates. That entry is the owner
of the pixel in the full span list of its line (R130). -/
def Obligations.LookupFindsOwner : Prop :=
  ∀ (l : ScanList) (x y : Nat),
    ((l.panel.width = 0 ∧ l.panel.height = 0) ∨ l.panel.width ≤ x ∨ l.panel.height ≤ y → lookupResult l x y = .outside)
    ∧ (x < l.panel.width → y < l.panel.height →
      ((∀ e ∈ l.entries, e.covers x y = false) → lookupResult l x y = .background ∧ (pixelAt l.entries x y).owner = none)
      ∧ ∀ (e : Entry) (before after : List Entry), l.entries = before ++ e :: after →
        (∀ f ∈ before, f.covers x y = false) → e.covers x y = true →
        (pixelAt l.entries x y).owner = some e
        ∧ (e.touch = .absorbs → lookupResult l x y = .absorbed e.id e.owner)
        ∧ (e.touch = .accepts → lookupResult l x y = .hit
            { id := e.id, owner := e.owner, localX := x - e.geometry.x, localY := y - e.geometry.y, plane := e.source.plane
              sourceColumn := (e.source.originColumn + (x - e.geometry.x)) % e.source.wrapWidth
              sourceRow := (e.source.originRow + (y - e.geometry.y)) % e.source.wrapHeight }))

/-! ### Invariants -/

/-- The part right after device reset meets every invariant below. -/
def Obligations.ResetMeetsInvariants : Prop :=
  QueueBounds State.reset ∧ EngineAtRest State.reset ∧ PinsHold State.reset ∧ SupervisorHolds State.reset
    ∧ RecordsHold State.reset ∧ GuardedLimitHolds State.reset ∧ GuardedDisjoint State.reset
    ∧ BandListsHold State.reset ∧ ClientLimitsHold State.reset ∧ LeasesHold State.reset ∧ PartsValid State.reset
    ∧ ScanListsHold State.reset ∧ PortHolds State.reset ∧ BuilderHolds State.reset

/-- Every step keeps the queues, assemblies, read positions and counters within their sizes (R82, R105, R141, R149, R152,
R161, R165, R167). -/
def Obligations.QueueBoundsKept : Prop :=
  ∀ s t : State, QueueBounds s → step s = .next t → QueueBounds t

/-- Every step keeps the agreement of the engine, the Parked List and the copy (R76, R82, R83, R85, R86): in particular the
Parked List holds entries only while the unit is COPYING or a copy-end application is due. That between commands the engine is
WORKING only on the rest of a piece, and no committed work is indicated, is the model's choice (log 8). -/
def Obligations.EngineAtRestKept : Prop :=
  ∀ s t : State, EngineAtRest s → step s = .next t → EngineAtRest t

/-- Only a publish, a close or a clear that is applied, or a device reset, changes the committed table: any other command
leaves every committed part, every changed frame, the LIVE set and every band list as they are, whatever it stages or frees
(R16, R41). HELD_ANSWER_PLACEMENT is excepted because a copy-end application goes on with it (R82, R87). -/
def Obligations.OnlyAppliedWorkCommits : Prop :=
  ∀ (c : Instr) (s t : State), BandListsHold s → c ≠ .publish → (∀ race, c ≠ .closeClient race) →
    (∀ race, c ≠ .clearAll race) → c ≠ .copyEndApplication → c ≠ .heldAnswerPlacement →
    (∀ level, c ≠ .deviceReset level) → exec c s = .next t → sameCommitted s t

/-- While the unit is COPYING no command but DEVICE_RESET changes a committed part, the LIVE set, a changed frame or a band
list (R16, R41, R83, R121). -/
def Obligations.CommittedFixedWhileCopying : Prop :=
  ∀ (c : Instr) (s t : State), EngineAtRest s → BandListsHold s → isCopying s = true → (∀ level, c ≠ .deviceReset level) →
    exec c s = .next t → sameCommitted s t

/-- Every step keeps the pins (R113, R118), and a list that a lookup has pinned keeps its contents until the lookup ends or
the part is reset (R113). -/
def Obligations.PinsKept : Prop :=
  (∀ s t : State, PinsHold s → step s = .next t → PinsHold t)
    ∧ ∀ (c : Instr) (s t : State) (p : Point) (n : ListName), PinsHold s → s.lookup = .looking p n →
      (∀ level, c ≠ .deviceReset level) → exec c s = .next t →
      (t.scanList n).tag = (s.scanList n).tag ∧ (t.scanList n).panel = (s.scanList n).panel
        ∧ (t.scanList n).entries = (s.scanList n).entries

/-- Every step keeps the supervisor: client 0 stays open, of class GUARDED, with quota 64 and lease period 0, its counter
never runs, and it never lapses (R26, R97). -/
def Obligations.SupervisorKept : Prop :=
  ∀ s t : State, SupervisorHolds s → step s = .next t → SupervisorHolds t

/-- Every step keeps the Parked List in agreement with the client records, the owned counts with the Region Table, and the
staging with both: staged parts only with an ACTIVE or PUBLISHING owner, creation orders 1, 2, 3 and so on without gaps,
terms, moves and the parked-entry flag only in the states that have them (R2, R8, R21, R24, R31, R35, R85). That the target
of a close which waits on its CANCELLED answer is PUBLISHING is the model's reading (log 18). -/
def Obligations.RecordsKept : Prop :=
  ∀ s t : State, EngineAtRest s → RecordsHold s → step s = .next t → RecordsHold t

/-- Every step keeps at most 4 regions of the GUARDED band RESERVED or LIVE (R25), and keeps the committed rectangles of
guarded regions apart (R66). -/
def Obligations.GuardedKept : Prop :=
  (∀ s t : State, GuardedLimitHolds s → step s = .next t → GuardedLimitHolds t)
    ∧ ∀ s t : State, GuardedDisjoint s → step s = .next t → GuardedDisjoint t

/-- Every step keeps the band lists: every LIVE region stands exactly once, in the list of its own band, and no other region
stands in any (R39). -/
def Obligations.BandListsKept : Prop :=
  ∀ s t : State, BandListsHold s → step s = .next t → BandListsHold t

/-- Every step keeps quotas, owned counts, move lists, lease counters and the Lapse Pending Set within their ranges (R21,
R23, R24, R44, R92, R97), and keeps the lease counters and the set as the client records have them: R92's table (R92, R97). -/
def Obligations.ClientLimitsKept : Prop :=
  (∀ s t : State, ClientLimitsHold s → step s = .next t → ClientLimitsHold t)
    ∧ ∀ s t : State, EngineAtRest s → RecordsHold s → SupervisorHolds s → LeasesHold s → step s = .next t → LeasesHold t

/-- Every step keeps every part of every record valid against the panel configuration and its band (R3, R4, R5, R6, R108),
and keeps what the scan lists hold: entries of different ids in the stacking order, valid for the list's panel, with at most
4 GUARDED entries, which are OPAQUE and apart (R110, R111, R120, R121, R128, R135). -/
def Obligations.PartsValidKept : Prop :=
  (∀ s t : State, PartsValid s → step s = .next t → PartsValid t)
    ∧ ∀ s t : State, EngineAtRest s → BandListsHold s → GuardedLimitHolds s → GuardedDisjoint s → PartsValid s →
      ScanListsHold s → step s = .next t → ScanListsHold t

/-- Every step keeps the Span Output Port within the items of the Span Queue's older line (R142, R143, R144, R145), and a
build on the SHOWING list (R127, R129). That an IDLE port has an empty Span Queue is the model's choice (log 21). -/
def Obligations.SpanPathKept : Prop :=
  (∀ s t : State, PortHolds s → step s = .next t → PortHolds t)
    ∧ ∀ s t : State, BuilderHolds s → step s = .next t → BuilderHolds t
end

