-- ==== Sys2Proof/Laws/State.lean ====
section
/-! SUPPORT. What the updates of State leave unchanged: one lemma per field per update, each true by rfl (with the state taken apart, so that the check compares one field only). -/

namespace Sys2Proof.Machine

section

variable (f : RegionId → Region → Region) (s : State)

@[simp] theorem State.mapRegions_resetLow : (s.mapRegions f).resetLow = s.resetLow := by cases s; rfl
@[simp] theorem State.mapRegions_clients : (s.mapRegions f).clients = s.clients := by cases s; rfl
@[simp] theorem State.mapRegions_bands : (s.mapRegions f).bands = s.bands := by cases s; rfl
@[simp] theorem State.mapRegions_parked : (s.mapRegions f).parked = s.parked := by cases s; rfl
@[simp] theorem State.mapRegions_panel : (s.mapRegions f).panel = s.panel := by cases s; rfl
@[simp] theorem State.mapRegions_engine : (s.mapRegions f).engine = s.engine := by cases s; rfl
@[simp] theorem State.mapRegions_committedWork : (s.mapRegions f).committedWork = s.committedWork := by cases s; rfl
@[simp] theorem State.mapRegions_copyEndDue : (s.mapRegions f).copyEndDue = s.copyEndDue := by cases s; rfl
@[simp] theorem State.mapRegions_counters : (s.mapRegions f).counters = s.counters := by cases s; rfl
@[simp] theorem State.mapRegions_lapsePending : (s.mapRegions f).lapsePending = s.lapsePending := by cases s; rfl
@[simp] theorem State.mapRegions_leaseInbox : (s.mapRegions f).leaseInbox = s.leaseInbox := by cases s; rfl
@[simp] theorem State.mapRegions_frameCounter : (s.mapRegions f).frameCounter = s.frameCounter := by cases s; rfl
@[simp] theorem State.mapRegions_lineCounter : (s.mapRegions f).lineCounter = s.lineCounter := by cases s; rfl
@[simp] theorem State.mapRegions_snapState : (s.mapRegions f).snapState = s.snapState := by cases s; rfl
@[simp] theorem State.mapRegions_snapFrame : (s.mapRegions f).snapFrame = s.snapFrame := by cases s; rfl
@[simp] theorem State.mapRegions_listA : (s.mapRegions f).listA = s.listA := by cases s; rfl
@[simp] theorem State.mapRegions_listB : (s.mapRegions f).listB = s.listB := by cases s; rfl
@[simp] theorem State.mapRegions_showing : (s.mapRegions f).showing = s.showing := by cases s; rfl
@[simp] theorem State.mapRegions_builder : (s.mapRegions f).builder = s.builder := by cases s; rfl
@[simp] theorem State.mapRegions_spanQueue : (s.mapRegions f).spanQueue = s.spanQueue := by cases s; rfl
@[simp] theorem State.mapRegions_spanPort : (s.mapRegions f).spanPort = s.spanPort := by cases s; rfl
@[simp] theorem State.mapRegions_pointBytes : (s.mapRegions f).pointBytes = s.pointBytes := by cases s; rfl
@[simp] theorem State.mapRegions_points : (s.mapRegions f).points = s.points := by cases s; rfl
@[simp] theorem State.mapRegions_lookup : (s.mapRegions f).lookup = s.lookup := by cases s; rfl
@[simp] theorem State.mapRegions_lookupAnswers : (s.mapRegions f).lookupAnswers = s.lookupAnswers := by cases s; rfl
@[simp] theorem State.mapRegions_lookupRead : (s.mapRegions f).lookupRead = s.lookupRead := by cases s; rfl
@[simp] theorem State.mapRegions_lkSel : (s.mapRegions f).lkSel = s.lkSel := by cases s; rfl
@[simp] theorem State.mapRegions_lkByte : (s.mapRegions f).lkByte = s.lkByte := by cases s; rfl
@[simp] theorem State.mapRegions_assembly : (s.mapRegions f).assembly = s.assembly := by cases s; rfl
@[simp] theorem State.mapRegions_requests : (s.mapRegions f).requests = s.requests := by cases s; rfl
@[simp] theorem State.mapRegions_answers : (s.mapRegions f).answers = s.answers := by cases s; rfl
@[simp] theorem State.mapRegions_answerRead : (s.mapRegions f).answerRead = s.answerRead := by cases s; rfl
@[simp] theorem State.mapRegions_statusHeld : (s.mapRegions f).statusHeld = s.statusHeld := by cases s; rfl
@[simp] theorem State.mapRegions_lastReadEmpty : (s.mapRegions f).lastReadEmpty = s.lastReadEmpty := by cases s; rfl
@[simp] theorem State.mapRegions_flags : (s.mapRegions f).flags = s.flags := by cases s; rfl
@[simp] theorem State.mapRegions_enables : (s.mapRegions f).enables = s.enables := by cases s; rfl
@[simp] theorem State.mapRegions_rqData : (s.mapRegions f).rqData = s.rqData := by cases s; rfl
@[simp] theorem State.mapRegions_pending : (s.mapRegions f).pending = s.pending := by cases s; rfl

end

section

variable (f : ClientId → Client → Client) (s : State)

@[simp] theorem State.mapClients_resetLow : (s.mapClients f).resetLow = s.resetLow := by cases s; rfl
@[simp] theorem State.mapClients_regions : (s.mapClients f).regions = s.regions := by cases s; rfl
@[simp] theorem State.mapClients_bands : (s.mapClients f).bands = s.bands := by cases s; rfl
@[simp] theorem State.mapClients_parked : (s.mapClients f).parked = s.parked := by cases s; rfl
@[simp] theorem State.mapClients_panel : (s.mapClients f).panel = s.panel := by cases s; rfl
@[simp] theorem State.mapClients_engine : (s.mapClients f).engine = s.engine := by cases s; rfl
@[simp] theorem State.mapClients_committedWork : (s.mapClients f).committedWork = s.committedWork := by cases s; rfl
@[simp] theorem State.mapClients_copyEndDue : (s.mapClients f).copyEndDue = s.copyEndDue := by cases s; rfl
@[simp] theorem State.mapClients_counters : (s.mapClients f).counters = s.counters := by cases s; rfl
@[simp] theorem State.mapClients_lapsePending : (s.mapClients f).lapsePending = s.lapsePending := by cases s; rfl
@[simp] theorem State.mapClients_leaseInbox : (s.mapClients f).leaseInbox = s.leaseInbox := by cases s; rfl
@[simp] theorem State.mapClients_frameCounter : (s.mapClients f).frameCounter = s.frameCounter := by cases s; rfl
@[simp] theorem State.mapClients_lineCounter : (s.mapClients f).lineCounter = s.lineCounter := by cases s; rfl
@[simp] theorem State.mapClients_snapState : (s.mapClients f).snapState = s.snapState := by cases s; rfl
@[simp] theorem State.mapClients_snapFrame : (s.mapClients f).snapFrame = s.snapFrame := by cases s; rfl
@[simp] theorem State.mapClients_listA : (s.mapClients f).listA = s.listA := by cases s; rfl
@[simp] theorem State.mapClients_listB : (s.mapClients f).listB = s.listB := by cases s; rfl
@[simp] theorem State.mapClients_showing : (s.mapClients f).showing = s.showing := by cases s; rfl
@[simp] theorem State.mapClients_builder : (s.mapClients f).builder = s.builder := by cases s; rfl
@[simp] theorem State.mapClients_spanQueue : (s.mapClients f).spanQueue = s.spanQueue := by cases s; rfl
@[simp] theorem State.mapClients_spanPort : (s.mapClients f).spanPort = s.spanPort := by cases s; rfl
@[simp] theorem State.mapClients_pointBytes : (s.mapClients f).pointBytes = s.pointBytes := by cases s; rfl
@[simp] theorem State.mapClients_points : (s.mapClients f).points = s.points := by cases s; rfl
@[simp] theorem State.mapClients_lookup : (s.mapClients f).lookup = s.lookup := by cases s; rfl
@[simp] theorem State.mapClients_lookupAnswers : (s.mapClients f).lookupAnswers = s.lookupAnswers := by cases s; rfl
@[simp] theorem State.mapClients_lookupRead : (s.mapClients f).lookupRead = s.lookupRead := by cases s; rfl
@[simp] theorem State.mapClients_lkSel : (s.mapClients f).lkSel = s.lkSel := by cases s; rfl
@[simp] theorem State.mapClients_lkByte : (s.mapClients f).lkByte = s.lkByte := by cases s; rfl
@[simp] theorem State.mapClients_assembly : (s.mapClients f).assembly = s.assembly := by cases s; rfl
@[simp] theorem State.mapClients_requests : (s.mapClients f).requests = s.requests := by cases s; rfl
@[simp] theorem State.mapClients_answers : (s.mapClients f).answers = s.answers := by cases s; rfl
@[simp] theorem State.mapClients_answerRead : (s.mapClients f).answerRead = s.answerRead := by cases s; rfl
@[simp] theorem State.mapClients_statusHeld : (s.mapClients f).statusHeld = s.statusHeld := by cases s; rfl
@[simp] theorem State.mapClients_lastReadEmpty : (s.mapClients f).lastReadEmpty = s.lastReadEmpty := by cases s; rfl
@[simp] theorem State.mapClients_flags : (s.mapClients f).flags = s.flags := by cases s; rfl
@[simp] theorem State.mapClients_enables : (s.mapClients f).enables = s.enables := by cases s; rfl
@[simp] theorem State.mapClients_rqData : (s.mapClients f).rqData = s.rqData := by cases s; rfl
@[simp] theorem State.mapClients_pending : (s.mapClients f).pending = s.pending := by cases s; rfl

end

section

variable (f : ClientId → LeaseCounter → LeaseCounter) (s : State)

@[simp] theorem State.mapCounters_resetLow : (s.mapCounters f).resetLow = s.resetLow := by cases s; rfl
@[simp] theorem State.mapCounters_regions : (s.mapCounters f).regions = s.regions := by cases s; rfl
@[simp] theorem State.mapCounters_clients : (s.mapCounters f).clients = s.clients := by cases s; rfl
@[simp] theorem State.mapCounters_bands : (s.mapCounters f).bands = s.bands := by cases s; rfl
@[simp] theorem State.mapCounters_parked : (s.mapCounters f).parked = s.parked := by cases s; rfl
@[simp] theorem State.mapCounters_panel : (s.mapCounters f).panel = s.panel := by cases s; rfl
@[simp] theorem State.mapCounters_engine : (s.mapCounters f).engine = s.engine := by cases s; rfl
@[simp] theorem State.mapCounters_committedWork : (s.mapCounters f).committedWork = s.committedWork := by cases s; rfl
@[simp] theorem State.mapCounters_copyEndDue : (s.mapCounters f).copyEndDue = s.copyEndDue := by cases s; rfl
@[simp] theorem State.mapCounters_lapsePending : (s.mapCounters f).lapsePending = s.lapsePending := by cases s; rfl
@[simp] theorem State.mapCounters_leaseInbox : (s.mapCounters f).leaseInbox = s.leaseInbox := by cases s; rfl
@[simp] theorem State.mapCounters_frameCounter : (s.mapCounters f).frameCounter = s.frameCounter := by cases s; rfl
@[simp] theorem State.mapCounters_lineCounter : (s.mapCounters f).lineCounter = s.lineCounter := by cases s; rfl
@[simp] theorem State.mapCounters_snapState : (s.mapCounters f).snapState = s.snapState := by cases s; rfl
@[simp] theorem State.mapCounters_snapFrame : (s.mapCounters f).snapFrame = s.snapFrame := by cases s; rfl
@[simp] theorem State.mapCounters_listA : (s.mapCounters f).listA = s.listA := by cases s; rfl
@[simp] theorem State.mapCounters_listB : (s.mapCounters f).listB = s.listB := by cases s; rfl
@[simp] theorem State.mapCounters_showing : (s.mapCounters f).showing = s.showing := by cases s; rfl
@[simp] theorem State.mapCounters_builder : (s.mapCounters f).builder = s.builder := by cases s; rfl
@[simp] theorem State.mapCounters_spanQueue : (s.mapCounters f).spanQueue = s.spanQueue := by cases s; rfl
@[simp] theorem State.mapCounters_spanPort : (s.mapCounters f).spanPort = s.spanPort := by cases s; rfl
@[simp] theorem State.mapCounters_pointBytes : (s.mapCounters f).pointBytes = s.pointBytes := by cases s; rfl
@[simp] theorem State.mapCounters_points : (s.mapCounters f).points = s.points := by cases s; rfl
@[simp] theorem State.mapCounters_lookup : (s.mapCounters f).lookup = s.lookup := by cases s; rfl
@[simp] theorem State.mapCounters_lookupAnswers : (s.mapCounters f).lookupAnswers = s.lookupAnswers := by cases s; rfl
@[simp] theorem State.mapCounters_lookupRead : (s.mapCounters f).lookupRead = s.lookupRead := by cases s; rfl
@[simp] theorem State.mapCounters_lkSel : (s.mapCounters f).lkSel = s.lkSel := by cases s; rfl
@[simp] theorem State.mapCounters_lkByte : (s.mapCounters f).lkByte = s.lkByte := by cases s; rfl
@[simp] theorem State.mapCounters_assembly : (s.mapCounters f).assembly = s.assembly := by cases s; rfl
@[simp] theorem State.mapCounters_requests : (s.mapCounters f).requests = s.requests := by cases s; rfl
@[simp] theorem State.mapCounters_answers : (s.mapCounters f).answers = s.answers := by cases s; rfl
@[simp] theorem State.mapCounters_answerRead : (s.mapCounters f).answerRead = s.answerRead := by cases s; rfl
@[simp] theorem State.mapCounters_statusHeld : (s.mapCounters f).statusHeld = s.statusHeld := by cases s; rfl
@[simp] theorem State.mapCounters_lastReadEmpty : (s.mapCounters f).lastReadEmpty = s.lastReadEmpty := by cases s; rfl
@[simp] theorem State.mapCounters_flags : (s.mapCounters f).flags = s.flags := by cases s; rfl
@[simp] theorem State.mapCounters_enables : (s.mapCounters f).enables = s.enables := by cases s; rfl
@[simp] theorem State.mapCounters_rqData : (s.mapCounters f).rqData = s.rqData := by cases s; rfl
@[simp] theorem State.mapCounters_pending : (s.mapCounters f).pending = s.pending := by cases s; rfl

end

section

variable (i : RegionId) (r : Region) (s : State)

@[simp] theorem State.setRegion_resetLow : (s.setRegion i r).resetLow = s.resetLow := by cases s; rfl
@[simp] theorem State.setRegion_clients : (s.setRegion i r).clients = s.clients := by cases s; rfl
@[simp] theorem State.setRegion_bands : (s.setRegion i r).bands = s.bands := by cases s; rfl
@[simp] theorem State.setRegion_parked : (s.setRegion i r).parked = s.parked := by cases s; rfl
@[simp] theorem State.setRegion_panel : (s.setRegion i r).panel = s.panel := by cases s; rfl
@[simp] theorem State.setRegion_engine : (s.setRegion i r).engine = s.engine := by cases s; rfl
@[simp] theorem State.setRegion_committedWork : (s.setRegion i r).committedWork = s.committedWork := by cases s; rfl
@[simp] theorem State.setRegion_copyEndDue : (s.setRegion i r).copyEndDue = s.copyEndDue := by cases s; rfl
@[simp] theorem State.setRegion_counters : (s.setRegion i r).counters = s.counters := by cases s; rfl
@[simp] theorem State.setRegion_lapsePending : (s.setRegion i r).lapsePending = s.lapsePending := by cases s; rfl
@[simp] theorem State.setRegion_leaseInbox : (s.setRegion i r).leaseInbox = s.leaseInbox := by cases s; rfl
@[simp] theorem State.setRegion_frameCounter : (s.setRegion i r).frameCounter = s.frameCounter := by cases s; rfl
@[simp] theorem State.setRegion_lineCounter : (s.setRegion i r).lineCounter = s.lineCounter := by cases s; rfl
@[simp] theorem State.setRegion_snapState : (s.setRegion i r).snapState = s.snapState := by cases s; rfl
@[simp] theorem State.setRegion_snapFrame : (s.setRegion i r).snapFrame = s.snapFrame := by cases s; rfl
@[simp] theorem State.setRegion_listA : (s.setRegion i r).listA = s.listA := by cases s; rfl
@[simp] theorem State.setRegion_listB : (s.setRegion i r).listB = s.listB := by cases s; rfl
@[simp] theorem State.setRegion_showing : (s.setRegion i r).showing = s.showing := by cases s; rfl
@[simp] theorem State.setRegion_builder : (s.setRegion i r).builder = s.builder := by cases s; rfl
@[simp] theorem State.setRegion_spanQueue : (s.setRegion i r).spanQueue = s.spanQueue := by cases s; rfl
@[simp] theorem State.setRegion_spanPort : (s.setRegion i r).spanPort = s.spanPort := by cases s; rfl
@[simp] theorem State.setRegion_pointBytes : (s.setRegion i r).pointBytes = s.pointBytes := by cases s; rfl
@[simp] theorem State.setRegion_points : (s.setRegion i r).points = s.points := by cases s; rfl
@[simp] theorem State.setRegion_lookup : (s.setRegion i r).lookup = s.lookup := by cases s; rfl
@[simp] theorem State.setRegion_lookupAnswers : (s.setRegion i r).lookupAnswers = s.lookupAnswers := by cases s; rfl
@[simp] theorem State.setRegion_lookupRead : (s.setRegion i r).lookupRead = s.lookupRead := by cases s; rfl
@[simp] theorem State.setRegion_lkSel : (s.setRegion i r).lkSel = s.lkSel := by cases s; rfl
@[simp] theorem State.setRegion_lkByte : (s.setRegion i r).lkByte = s.lkByte := by cases s; rfl
@[simp] theorem State.setRegion_assembly : (s.setRegion i r).assembly = s.assembly := by cases s; rfl
@[simp] theorem State.setRegion_requests : (s.setRegion i r).requests = s.requests := by cases s; rfl
@[simp] theorem State.setRegion_answers : (s.setRegion i r).answers = s.answers := by cases s; rfl
@[simp] theorem State.setRegion_answerRead : (s.setRegion i r).answerRead = s.answerRead := by cases s; rfl
@[simp] theorem State.setRegion_statusHeld : (s.setRegion i r).statusHeld = s.statusHeld := by cases s; rfl
@[simp] theorem State.setRegion_lastReadEmpty : (s.setRegion i r).lastReadEmpty = s.lastReadEmpty := by cases s; rfl
@[simp] theorem State.setRegion_flags : (s.setRegion i r).flags = s.flags := by cases s; rfl
@[simp] theorem State.setRegion_enables : (s.setRegion i r).enables = s.enables := by cases s; rfl
@[simp] theorem State.setRegion_rqData : (s.setRegion i r).rqData = s.rqData := by cases s; rfl
@[simp] theorem State.setRegion_pending : (s.setRegion i r).pending = s.pending := by cases s; rfl

end

section

variable (k : ClientId) (f : Client → Client) (s : State)

@[simp] theorem State.updClient_resetLow : (s.updClient k f).resetLow = s.resetLow := by cases s; rfl
@[simp] theorem State.updClient_regions : (s.updClient k f).regions = s.regions := by cases s; rfl
@[simp] theorem State.updClient_bands : (s.updClient k f).bands = s.bands := by cases s; rfl
@[simp] theorem State.updClient_parked : (s.updClient k f).parked = s.parked := by cases s; rfl
@[simp] theorem State.updClient_panel : (s.updClient k f).panel = s.panel := by cases s; rfl
@[simp] theorem State.updClient_engine : (s.updClient k f).engine = s.engine := by cases s; rfl
@[simp] theorem State.updClient_committedWork : (s.updClient k f).committedWork = s.committedWork := by cases s; rfl
@[simp] theorem State.updClient_copyEndDue : (s.updClient k f).copyEndDue = s.copyEndDue := by cases s; rfl
@[simp] theorem State.updClient_counters : (s.updClient k f).counters = s.counters := by cases s; rfl
@[simp] theorem State.updClient_lapsePending : (s.updClient k f).lapsePending = s.lapsePending := by cases s; rfl
@[simp] theorem State.updClient_leaseInbox : (s.updClient k f).leaseInbox = s.leaseInbox := by cases s; rfl
@[simp] theorem State.updClient_frameCounter : (s.updClient k f).frameCounter = s.frameCounter := by cases s; rfl
@[simp] theorem State.updClient_lineCounter : (s.updClient k f).lineCounter = s.lineCounter := by cases s; rfl
@[simp] theorem State.updClient_snapState : (s.updClient k f).snapState = s.snapState := by cases s; rfl
@[simp] theorem State.updClient_snapFrame : (s.updClient k f).snapFrame = s.snapFrame := by cases s; rfl
@[simp] theorem State.updClient_listA : (s.updClient k f).listA = s.listA := by cases s; rfl
@[simp] theorem State.updClient_listB : (s.updClient k f).listB = s.listB := by cases s; rfl
@[simp] theorem State.updClient_showing : (s.updClient k f).showing = s.showing := by cases s; rfl
@[simp] theorem State.updClient_builder : (s.updClient k f).builder = s.builder := by cases s; rfl
@[simp] theorem State.updClient_spanQueue : (s.updClient k f).spanQueue = s.spanQueue := by cases s; rfl
@[simp] theorem State.updClient_spanPort : (s.updClient k f).spanPort = s.spanPort := by cases s; rfl
@[simp] theorem State.updClient_pointBytes : (s.updClient k f).pointBytes = s.pointBytes := by cases s; rfl
@[simp] theorem State.updClient_points : (s.updClient k f).points = s.points := by cases s; rfl
@[simp] theorem State.updClient_lookup : (s.updClient k f).lookup = s.lookup := by cases s; rfl
@[simp] theorem State.updClient_lookupAnswers : (s.updClient k f).lookupAnswers = s.lookupAnswers := by cases s; rfl
@[simp] theorem State.updClient_lookupRead : (s.updClient k f).lookupRead = s.lookupRead := by cases s; rfl
@[simp] theorem State.updClient_lkSel : (s.updClient k f).lkSel = s.lkSel := by cases s; rfl
@[simp] theorem State.updClient_lkByte : (s.updClient k f).lkByte = s.lkByte := by cases s; rfl
@[simp] theorem State.updClient_assembly : (s.updClient k f).assembly = s.assembly := by cases s; rfl
@[simp] theorem State.updClient_requests : (s.updClient k f).requests = s.requests := by cases s; rfl
@[simp] theorem State.updClient_answers : (s.updClient k f).answers = s.answers := by cases s; rfl
@[simp] theorem State.updClient_answerRead : (s.updClient k f).answerRead = s.answerRead := by cases s; rfl
@[simp] theorem State.updClient_statusHeld : (s.updClient k f).statusHeld = s.statusHeld := by cases s; rfl
@[simp] theorem State.updClient_lastReadEmpty : (s.updClient k f).lastReadEmpty = s.lastReadEmpty := by cases s; rfl
@[simp] theorem State.updClient_flags : (s.updClient k f).flags = s.flags := by cases s; rfl
@[simp] theorem State.updClient_enables : (s.updClient k f).enables = s.enables := by cases s; rfl
@[simp] theorem State.updClient_rqData : (s.updClient k f).rqData = s.rqData := by cases s; rfl
@[simp] theorem State.updClient_pending : (s.updClient k f).pending = s.pending := by cases s; rfl

end

section

variable (k : ClientId) (c : LeaseCounter) (s : State)

@[simp] theorem State.setCounter_resetLow : (s.setCounter k c).resetLow = s.resetLow := by cases s; rfl
@[simp] theorem State.setCounter_regions : (s.setCounter k c).regions = s.regions := by cases s; rfl
@[simp] theorem State.setCounter_clients : (s.setCounter k c).clients = s.clients := by cases s; rfl
@[simp] theorem State.setCounter_bands : (s.setCounter k c).bands = s.bands := by cases s; rfl
@[simp] theorem State.setCounter_parked : (s.setCounter k c).parked = s.parked := by cases s; rfl
@[simp] theorem State.setCounter_panel : (s.setCounter k c).panel = s.panel := by cases s; rfl
@[simp] theorem State.setCounter_engine : (s.setCounter k c).engine = s.engine := by cases s; rfl
@[simp] theorem State.setCounter_committedWork : (s.setCounter k c).committedWork = s.committedWork := by cases s; rfl
@[simp] theorem State.setCounter_copyEndDue : (s.setCounter k c).copyEndDue = s.copyEndDue := by cases s; rfl
@[simp] theorem State.setCounter_lapsePending : (s.setCounter k c).lapsePending = s.lapsePending := by cases s; rfl
@[simp] theorem State.setCounter_leaseInbox : (s.setCounter k c).leaseInbox = s.leaseInbox := by cases s; rfl
@[simp] theorem State.setCounter_frameCounter : (s.setCounter k c).frameCounter = s.frameCounter := by cases s; rfl
@[simp] theorem State.setCounter_lineCounter : (s.setCounter k c).lineCounter = s.lineCounter := by cases s; rfl
@[simp] theorem State.setCounter_snapState : (s.setCounter k c).snapState = s.snapState := by cases s; rfl
@[simp] theorem State.setCounter_snapFrame : (s.setCounter k c).snapFrame = s.snapFrame := by cases s; rfl
@[simp] theorem State.setCounter_listA : (s.setCounter k c).listA = s.listA := by cases s; rfl
@[simp] theorem State.setCounter_listB : (s.setCounter k c).listB = s.listB := by cases s; rfl
@[simp] theorem State.setCounter_showing : (s.setCounter k c).showing = s.showing := by cases s; rfl
@[simp] theorem State.setCounter_builder : (s.setCounter k c).builder = s.builder := by cases s; rfl
@[simp] theorem State.setCounter_spanQueue : (s.setCounter k c).spanQueue = s.spanQueue := by cases s; rfl
@[simp] theorem State.setCounter_spanPort : (s.setCounter k c).spanPort = s.spanPort := by cases s; rfl
@[simp] theorem State.setCounter_pointBytes : (s.setCounter k c).pointBytes = s.pointBytes := by cases s; rfl
@[simp] theorem State.setCounter_points : (s.setCounter k c).points = s.points := by cases s; rfl
@[simp] theorem State.setCounter_lookup : (s.setCounter k c).lookup = s.lookup := by cases s; rfl
@[simp] theorem State.setCounter_lookupAnswers : (s.setCounter k c).lookupAnswers = s.lookupAnswers := by cases s; rfl
@[simp] theorem State.setCounter_lookupRead : (s.setCounter k c).lookupRead = s.lookupRead := by cases s; rfl
@[simp] theorem State.setCounter_lkSel : (s.setCounter k c).lkSel = s.lkSel := by cases s; rfl
@[simp] theorem State.setCounter_lkByte : (s.setCounter k c).lkByte = s.lkByte := by cases s; rfl
@[simp] theorem State.setCounter_assembly : (s.setCounter k c).assembly = s.assembly := by cases s; rfl
@[simp] theorem State.setCounter_requests : (s.setCounter k c).requests = s.requests := by cases s; rfl
@[simp] theorem State.setCounter_answers : (s.setCounter k c).answers = s.answers := by cases s; rfl
@[simp] theorem State.setCounter_answerRead : (s.setCounter k c).answerRead = s.answerRead := by cases s; rfl
@[simp] theorem State.setCounter_statusHeld : (s.setCounter k c).statusHeld = s.statusHeld := by cases s; rfl
@[simp] theorem State.setCounter_lastReadEmpty : (s.setCounter k c).lastReadEmpty = s.lastReadEmpty := by cases s; rfl
@[simp] theorem State.setCounter_flags : (s.setCounter k c).flags = s.flags := by cases s; rfl
@[simp] theorem State.setCounter_enables : (s.setCounter k c).enables = s.enables := by cases s; rfl
@[simp] theorem State.setCounter_rqData : (s.setCounter k c).rqData = s.rqData := by cases s; rfl
@[simp] theorem State.setCounter_pending : (s.setCounter k c).pending = s.pending := by cases s; rfl

end

section

variable (ids : List RegionId) (s : State)

@[simp] theorem freeRecords_resetLow : (freeRecords ids s).resetLow = s.resetLow := by cases s; rfl
@[simp] theorem freeRecords_parked : (freeRecords ids s).parked = s.parked := by cases s; rfl
@[simp] theorem freeRecords_panel : (freeRecords ids s).panel = s.panel := by cases s; rfl
@[simp] theorem freeRecords_engine : (freeRecords ids s).engine = s.engine := by cases s; rfl
@[simp] theorem freeRecords_committedWork : (freeRecords ids s).committedWork = s.committedWork := by cases s; rfl
@[simp] theorem freeRecords_copyEndDue : (freeRecords ids s).copyEndDue = s.copyEndDue := by cases s; rfl
@[simp] theorem freeRecords_counters : (freeRecords ids s).counters = s.counters := by cases s; rfl
@[simp] theorem freeRecords_lapsePending : (freeRecords ids s).lapsePending = s.lapsePending := by cases s; rfl
@[simp] theorem freeRecords_leaseInbox : (freeRecords ids s).leaseInbox = s.leaseInbox := by cases s; rfl
@[simp] theorem freeRecords_frameCounter : (freeRecords ids s).frameCounter = s.frameCounter := by cases s; rfl
@[simp] theorem freeRecords_lineCounter : (freeRecords ids s).lineCounter = s.lineCounter := by cases s; rfl
@[simp] theorem freeRecords_snapState : (freeRecords ids s).snapState = s.snapState := by cases s; rfl
@[simp] theorem freeRecords_snapFrame : (freeRecords ids s).snapFrame = s.snapFrame := by cases s; rfl
@[simp] theorem freeRecords_listA : (freeRecords ids s).listA = s.listA := by cases s; rfl
@[simp] theorem freeRecords_listB : (freeRecords ids s).listB = s.listB := by cases s; rfl
@[simp] theorem freeRecords_showing : (freeRecords ids s).showing = s.showing := by cases s; rfl
@[simp] theorem freeRecords_builder : (freeRecords ids s).builder = s.builder := by cases s; rfl
@[simp] theorem freeRecords_spanQueue : (freeRecords ids s).spanQueue = s.spanQueue := by cases s; rfl
@[simp] theorem freeRecords_spanPort : (freeRecords ids s).spanPort = s.spanPort := by cases s; rfl
@[simp] theorem freeRecords_pointBytes : (freeRecords ids s).pointBytes = s.pointBytes := by cases s; rfl
@[simp] theorem freeRecords_points : (freeRecords ids s).points = s.points := by cases s; rfl
@[simp] theorem freeRecords_lookup : (freeRecords ids s).lookup = s.lookup := by cases s; rfl
@[simp] theorem freeRecords_lookupAnswers : (freeRecords ids s).lookupAnswers = s.lookupAnswers := by cases s; rfl
@[simp] theorem freeRecords_lookupRead : (freeRecords ids s).lookupRead = s.lookupRead := by cases s; rfl
@[simp] theorem freeRecords_lkSel : (freeRecords ids s).lkSel = s.lkSel := by cases s; rfl
@[simp] theorem freeRecords_lkByte : (freeRecords ids s).lkByte = s.lkByte := by cases s; rfl
@[simp] theorem freeRecords_assembly : (freeRecords ids s).assembly = s.assembly := by cases s; rfl
@[simp] theorem freeRecords_requests : (freeRecords ids s).requests = s.requests := by cases s; rfl
@[simp] theorem freeRecords_answers : (freeRecords ids s).answers = s.answers := by cases s; rfl
@[simp] theorem freeRecords_answerRead : (freeRecords ids s).answerRead = s.answerRead := by cases s; rfl
@[simp] theorem freeRecords_statusHeld : (freeRecords ids s).statusHeld = s.statusHeld := by cases s; rfl
@[simp] theorem freeRecords_lastReadEmpty : (freeRecords ids s).lastReadEmpty = s.lastReadEmpty := by cases s; rfl
@[simp] theorem freeRecords_flags : (freeRecords ids s).flags = s.flags := by cases s; rfl
@[simp] theorem freeRecords_enables : (freeRecords ids s).enables = s.enables := by cases s; rfl
@[simp] theorem freeRecords_rqData : (freeRecords ids s).rqData = s.rqData := by cases s; rfl
@[simp] theorem freeRecords_pending : (freeRecords ids s).pending = s.pending := by cases s; rfl

end

section

variable (k : ClientId) (s : State)

@[simp] theorem discardStaging_resetLow : (discardStaging k s).resetLow = s.resetLow := by cases s; rfl
@[simp] theorem discardStaging_parked : (discardStaging k s).parked = s.parked := by cases s; rfl
@[simp] theorem discardStaging_panel : (discardStaging k s).panel = s.panel := by cases s; rfl
@[simp] theorem discardStaging_engine : (discardStaging k s).engine = s.engine := by cases s; rfl
@[simp] theorem discardStaging_committedWork : (discardStaging k s).committedWork = s.committedWork := by cases s; rfl
@[simp] theorem discardStaging_copyEndDue : (discardStaging k s).copyEndDue = s.copyEndDue := by cases s; rfl
@[simp] theorem discardStaging_counters : (discardStaging k s).counters = s.counters := by cases s; rfl
@[simp] theorem discardStaging_lapsePending : (discardStaging k s).lapsePending = s.lapsePending := by cases s; rfl
@[simp] theorem discardStaging_leaseInbox : (discardStaging k s).leaseInbox = s.leaseInbox := by cases s; rfl
@[simp] theorem discardStaging_frameCounter : (discardStaging k s).frameCounter = s.frameCounter := by cases s; rfl
@[simp] theorem discardStaging_lineCounter : (discardStaging k s).lineCounter = s.lineCounter := by cases s; rfl
@[simp] theorem discardStaging_snapState : (discardStaging k s).snapState = s.snapState := by cases s; rfl
@[simp] theorem discardStaging_snapFrame : (discardStaging k s).snapFrame = s.snapFrame := by cases s; rfl
@[simp] theorem discardStaging_listA : (discardStaging k s).listA = s.listA := by cases s; rfl
@[simp] theorem discardStaging_listB : (discardStaging k s).listB = s.listB := by cases s; rfl
@[simp] theorem discardStaging_showing : (discardStaging k s).showing = s.showing := by cases s; rfl
@[simp] theorem discardStaging_builder : (discardStaging k s).builder = s.builder := by cases s; rfl
@[simp] theorem discardStaging_spanQueue : (discardStaging k s).spanQueue = s.spanQueue := by cases s; rfl
@[simp] theorem discardStaging_spanPort : (discardStaging k s).spanPort = s.spanPort := by cases s; rfl
@[simp] theorem discardStaging_pointBytes : (discardStaging k s).pointBytes = s.pointBytes := by cases s; rfl
@[simp] theorem discardStaging_points : (discardStaging k s).points = s.points := by cases s; rfl
@[simp] theorem discardStaging_lookup : (discardStaging k s).lookup = s.lookup := by cases s; rfl
@[simp] theorem discardStaging_lookupAnswers : (discardStaging k s).lookupAnswers = s.lookupAnswers := by cases s; rfl
@[simp] theorem discardStaging_lookupRead : (discardStaging k s).lookupRead = s.lookupRead := by cases s; rfl
@[simp] theorem discardStaging_lkSel : (discardStaging k s).lkSel = s.lkSel := by cases s; rfl
@[simp] theorem discardStaging_lkByte : (discardStaging k s).lkByte = s.lkByte := by cases s; rfl
@[simp] theorem discardStaging_assembly : (discardStaging k s).assembly = s.assembly := by cases s; rfl
@[simp] theorem discardStaging_requests : (discardStaging k s).requests = s.requests := by cases s; rfl
@[simp] theorem discardStaging_answers : (discardStaging k s).answers = s.answers := by cases s; rfl
@[simp] theorem discardStaging_answerRead : (discardStaging k s).answerRead = s.answerRead := by cases s; rfl
@[simp] theorem discardStaging_statusHeld : (discardStaging k s).statusHeld = s.statusHeld := by cases s; rfl
@[simp] theorem discardStaging_lastReadEmpty : (discardStaging k s).lastReadEmpty = s.lastReadEmpty := by cases s; rfl
@[simp] theorem discardStaging_flags : (discardStaging k s).flags = s.flags := by cases s; rfl
@[simp] theorem discardStaging_enables : (discardStaging k s).enables = s.enables := by cases s; rfl
@[simp] theorem discardStaging_rqData : (discardStaging k s).rqData = s.rqData := by cases s; rfl
@[simp] theorem discardStaging_pending : (discardStaging k s).pending = s.pending := by cases s; rfl

end

section

variable (k : ClientId) (s : State)

@[simp] theorem removePublish_resetLow : (removePublish k s).resetLow = s.resetLow := by cases s; rfl
@[simp] theorem removePublish_regions : (removePublish k s).regions = s.regions := by cases s; rfl
@[simp] theorem removePublish_bands : (removePublish k s).bands = s.bands := by cases s; rfl
@[simp] theorem removePublish_panel : (removePublish k s).panel = s.panel := by cases s; rfl
@[simp] theorem removePublish_engine : (removePublish k s).engine = s.engine := by cases s; rfl
@[simp] theorem removePublish_committedWork : (removePublish k s).committedWork = s.committedWork := by cases s; rfl
@[simp] theorem removePublish_copyEndDue : (removePublish k s).copyEndDue = s.copyEndDue := by cases s; rfl
@[simp] theorem removePublish_counters : (removePublish k s).counters = s.counters := by cases s; rfl
@[simp] theorem removePublish_lapsePending : (removePublish k s).lapsePending = s.lapsePending := by cases s; rfl
@[simp] theorem removePublish_leaseInbox : (removePublish k s).leaseInbox = s.leaseInbox := by cases s; rfl
@[simp] theorem removePublish_frameCounter : (removePublish k s).frameCounter = s.frameCounter := by cases s; rfl
@[simp] theorem removePublish_lineCounter : (removePublish k s).lineCounter = s.lineCounter := by cases s; rfl
@[simp] theorem removePublish_snapState : (removePublish k s).snapState = s.snapState := by cases s; rfl
@[simp] theorem removePublish_snapFrame : (removePublish k s).snapFrame = s.snapFrame := by cases s; rfl
@[simp] theorem removePublish_listA : (removePublish k s).listA = s.listA := by cases s; rfl
@[simp] theorem removePublish_listB : (removePublish k s).listB = s.listB := by cases s; rfl
@[simp] theorem removePublish_showing : (removePublish k s).showing = s.showing := by cases s; rfl
@[simp] theorem removePublish_builder : (removePublish k s).builder = s.builder := by cases s; rfl
@[simp] theorem removePublish_spanQueue : (removePublish k s).spanQueue = s.spanQueue := by cases s; rfl
@[simp] theorem removePublish_spanPort : (removePublish k s).spanPort = s.spanPort := by cases s; rfl
@[simp] theorem removePublish_pointBytes : (removePublish k s).pointBytes = s.pointBytes := by cases s; rfl
@[simp] theorem removePublish_points : (removePublish k s).points = s.points := by cases s; rfl
@[simp] theorem removePublish_lookup : (removePublish k s).lookup = s.lookup := by cases s; rfl
@[simp] theorem removePublish_lookupAnswers : (removePublish k s).lookupAnswers = s.lookupAnswers := by cases s; rfl
@[simp] theorem removePublish_lookupRead : (removePublish k s).lookupRead = s.lookupRead := by cases s; rfl
@[simp] theorem removePublish_lkSel : (removePublish k s).lkSel = s.lkSel := by cases s; rfl
@[simp] theorem removePublish_lkByte : (removePublish k s).lkByte = s.lkByte := by cases s; rfl
@[simp] theorem removePublish_assembly : (removePublish k s).assembly = s.assembly := by cases s; rfl
@[simp] theorem removePublish_requests : (removePublish k s).requests = s.requests := by cases s; rfl
@[simp] theorem removePublish_answers : (removePublish k s).answers = s.answers := by cases s; rfl
@[simp] theorem removePublish_answerRead : (removePublish k s).answerRead = s.answerRead := by cases s; rfl
@[simp] theorem removePublish_statusHeld : (removePublish k s).statusHeld = s.statusHeld := by cases s; rfl
@[simp] theorem removePublish_lastReadEmpty : (removePublish k s).lastReadEmpty = s.lastReadEmpty := by cases s; rfl
@[simp] theorem removePublish_flags : (removePublish k s).flags = s.flags := by cases s; rfl
@[simp] theorem removePublish_enables : (removePublish k s).enables = s.enables := by cases s; rfl
@[simp] theorem removePublish_rqData : (removePublish k s).rqData = s.rqData := by cases s; rfl
@[simp] theorem removePublish_pending : (removePublish k s).pending = s.pending := by cases s; rfl

end

section

variable (s : State)

@[simp] theorem expireCounters_resetLow : (expireCounters s).resetLow = s.resetLow := by cases s; rfl
@[simp] theorem expireCounters_regions : (expireCounters s).regions = s.regions := by cases s; rfl
@[simp] theorem expireCounters_clients : (expireCounters s).clients = s.clients := by cases s; rfl
@[simp] theorem expireCounters_bands : (expireCounters s).bands = s.bands := by cases s; rfl
@[simp] theorem expireCounters_parked : (expireCounters s).parked = s.parked := by cases s; rfl
@[simp] theorem expireCounters_panel : (expireCounters s).panel = s.panel := by cases s; rfl
@[simp] theorem expireCounters_engine : (expireCounters s).engine = s.engine := by cases s; rfl
@[simp] theorem expireCounters_committedWork : (expireCounters s).committedWork = s.committedWork := by cases s; rfl
@[simp] theorem expireCounters_copyEndDue : (expireCounters s).copyEndDue = s.copyEndDue := by cases s; rfl
@[simp] theorem expireCounters_leaseInbox : (expireCounters s).leaseInbox = s.leaseInbox := by cases s; rfl
@[simp] theorem expireCounters_frameCounter : (expireCounters s).frameCounter = s.frameCounter := by cases s; rfl
@[simp] theorem expireCounters_lineCounter : (expireCounters s).lineCounter = s.lineCounter := by cases s; rfl
@[simp] theorem expireCounters_snapState : (expireCounters s).snapState = s.snapState := by cases s; rfl
@[simp] theorem expireCounters_snapFrame : (expireCounters s).snapFrame = s.snapFrame := by cases s; rfl
@[simp] theorem expireCounters_listA : (expireCounters s).listA = s.listA := by cases s; rfl
@[simp] theorem expireCounters_listB : (expireCounters s).listB = s.listB := by cases s; rfl
@[simp] theorem expireCounters_showing : (expireCounters s).showing = s.showing := by cases s; rfl
@[simp] theorem expireCounters_builder : (expireCounters s).builder = s.builder := by cases s; rfl
@[simp] theorem expireCounters_spanQueue : (expireCounters s).spanQueue = s.spanQueue := by cases s; rfl
@[simp] theorem expireCounters_spanPort : (expireCounters s).spanPort = s.spanPort := by cases s; rfl
@[simp] theorem expireCounters_pointBytes : (expireCounters s).pointBytes = s.pointBytes := by cases s; rfl
@[simp] theorem expireCounters_points : (expireCounters s).points = s.points := by cases s; rfl
@[simp] theorem expireCounters_lookup : (expireCounters s).lookup = s.lookup := by cases s; rfl
@[simp] theorem expireCounters_lookupAnswers : (expireCounters s).lookupAnswers = s.lookupAnswers := by cases s; rfl
@[simp] theorem expireCounters_lookupRead : (expireCounters s).lookupRead = s.lookupRead := by cases s; rfl
@[simp] theorem expireCounters_lkSel : (expireCounters s).lkSel = s.lkSel := by cases s; rfl
@[simp] theorem expireCounters_lkByte : (expireCounters s).lkByte = s.lkByte := by cases s; rfl
@[simp] theorem expireCounters_assembly : (expireCounters s).assembly = s.assembly := by cases s; rfl
@[simp] theorem expireCounters_requests : (expireCounters s).requests = s.requests := by cases s; rfl
@[simp] theorem expireCounters_answers : (expireCounters s).answers = s.answers := by cases s; rfl
@[simp] theorem expireCounters_answerRead : (expireCounters s).answerRead = s.answerRead := by cases s; rfl
@[simp] theorem expireCounters_statusHeld : (expireCounters s).statusHeld = s.statusHeld := by cases s; rfl
@[simp] theorem expireCounters_lastReadEmpty : (expireCounters s).lastReadEmpty = s.lastReadEmpty := by cases s; rfl
@[simp] theorem expireCounters_enables : (expireCounters s).enables = s.enables := by cases s; rfl
@[simp] theorem expireCounters_rqData : (expireCounters s).rqData = s.rqData := by cases s; rfl
@[simp] theorem expireCounters_pending : (expireCounters s).pending = s.pending := by cases s; rfl

end

section

variable (s : State)

@[simp] theorem countDown_resetLow : (countDown s).resetLow = s.resetLow := by cases s; rfl
@[simp] theorem countDown_regions : (countDown s).regions = s.regions := by cases s; rfl
@[simp] theorem countDown_clients : (countDown s).clients = s.clients := by cases s; rfl
@[simp] theorem countDown_bands : (countDown s).bands = s.bands := by cases s; rfl
@[simp] theorem countDown_parked : (countDown s).parked = s.parked := by cases s; rfl
@[simp] theorem countDown_panel : (countDown s).panel = s.panel := by cases s; rfl
@[simp] theorem countDown_engine : (countDown s).engine = s.engine := by cases s; rfl
@[simp] theorem countDown_committedWork : (countDown s).committedWork = s.committedWork := by cases s; rfl
@[simp] theorem countDown_copyEndDue : (countDown s).copyEndDue = s.copyEndDue := by cases s; rfl
@[simp] theorem countDown_leaseInbox : (countDown s).leaseInbox = s.leaseInbox := by cases s; rfl
@[simp] theorem countDown_frameCounter : (countDown s).frameCounter = s.frameCounter := by cases s; rfl
@[simp] theorem countDown_lineCounter : (countDown s).lineCounter = s.lineCounter := by cases s; rfl
@[simp] theorem countDown_snapState : (countDown s).snapState = s.snapState := by cases s; rfl
@[simp] theorem countDown_snapFrame : (countDown s).snapFrame = s.snapFrame := by cases s; rfl
@[simp] theorem countDown_listA : (countDown s).listA = s.listA := by cases s; rfl
@[simp] theorem countDown_listB : (countDown s).listB = s.listB := by cases s; rfl
@[simp] theorem countDown_showing : (countDown s).showing = s.showing := by cases s; rfl
@[simp] theorem countDown_builder : (countDown s).builder = s.builder := by cases s; rfl
@[simp] theorem countDown_spanQueue : (countDown s).spanQueue = s.spanQueue := by cases s; rfl
@[simp] theorem countDown_spanPort : (countDown s).spanPort = s.spanPort := by cases s; rfl
@[simp] theorem countDown_pointBytes : (countDown s).pointBytes = s.pointBytes := by cases s; rfl
@[simp] theorem countDown_points : (countDown s).points = s.points := by cases s; rfl
@[simp] theorem countDown_lookup : (countDown s).lookup = s.lookup := by cases s; rfl
@[simp] theorem countDown_lookupAnswers : (countDown s).lookupAnswers = s.lookupAnswers := by cases s; rfl
@[simp] theorem countDown_lookupRead : (countDown s).lookupRead = s.lookupRead := by cases s; rfl
@[simp] theorem countDown_lkSel : (countDown s).lkSel = s.lkSel := by cases s; rfl
@[simp] theorem countDown_lkByte : (countDown s).lkByte = s.lkByte := by cases s; rfl
@[simp] theorem countDown_assembly : (countDown s).assembly = s.assembly := by cases s; rfl
@[simp] theorem countDown_requests : (countDown s).requests = s.requests := by cases s; rfl
@[simp] theorem countDown_answers : (countDown s).answers = s.answers := by cases s; rfl
@[simp] theorem countDown_answerRead : (countDown s).answerRead = s.answerRead := by cases s; rfl
@[simp] theorem countDown_statusHeld : (countDown s).statusHeld = s.statusHeld := by cases s; rfl
@[simp] theorem countDown_lastReadEmpty : (countDown s).lastReadEmpty = s.lastReadEmpty := by cases s; rfl
@[simp] theorem countDown_enables : (countDown s).enables = s.enables := by cases s; rfl
@[simp] theorem countDown_rqData : (countDown s).rqData = s.rqData := by cases s; rfl
@[simp] theorem countDown_pending : (countDown s).pending = s.pending := by cases s; rfl

end

section

variable (m : LeaseMsg) (s : State)

@[simp] theorem handLease_resetLow : (handLease m s).resetLow = s.resetLow := by cases s; rfl
@[simp] theorem handLease_regions : (handLease m s).regions = s.regions := by cases s; rfl
@[simp] theorem handLease_clients : (handLease m s).clients = s.clients := by cases s; rfl
@[simp] theorem handLease_bands : (handLease m s).bands = s.bands := by cases s; rfl
@[simp] theorem handLease_parked : (handLease m s).parked = s.parked := by cases s; rfl
@[simp] theorem handLease_panel : (handLease m s).panel = s.panel := by cases s; rfl
@[simp] theorem handLease_engine : (handLease m s).engine = s.engine := by cases s; rfl
@[simp] theorem handLease_committedWork : (handLease m s).committedWork = s.committedWork := by cases s; rfl
@[simp] theorem handLease_copyEndDue : (handLease m s).copyEndDue = s.copyEndDue := by cases s; rfl
@[simp] theorem handLease_counters : (handLease m s).counters = s.counters := by cases s; rfl
@[simp] theorem handLease_lapsePending : (handLease m s).lapsePending = s.lapsePending := by cases s; rfl
@[simp] theorem handLease_frameCounter : (handLease m s).frameCounter = s.frameCounter := by cases s; rfl
@[simp] theorem handLease_lineCounter : (handLease m s).lineCounter = s.lineCounter := by cases s; rfl
@[simp] theorem handLease_snapState : (handLease m s).snapState = s.snapState := by cases s; rfl
@[simp] theorem handLease_snapFrame : (handLease m s).snapFrame = s.snapFrame := by cases s; rfl
@[simp] theorem handLease_listA : (handLease m s).listA = s.listA := by cases s; rfl
@[simp] theorem handLease_listB : (handLease m s).listB = s.listB := by cases s; rfl
@[simp] theorem handLease_showing : (handLease m s).showing = s.showing := by cases s; rfl
@[simp] theorem handLease_builder : (handLease m s).builder = s.builder := by cases s; rfl
@[simp] theorem handLease_spanQueue : (handLease m s).spanQueue = s.spanQueue := by cases s; rfl
@[simp] theorem handLease_spanPort : (handLease m s).spanPort = s.spanPort := by cases s; rfl
@[simp] theorem handLease_pointBytes : (handLease m s).pointBytes = s.pointBytes := by cases s; rfl
@[simp] theorem handLease_points : (handLease m s).points = s.points := by cases s; rfl
@[simp] theorem handLease_lookup : (handLease m s).lookup = s.lookup := by cases s; rfl
@[simp] theorem handLease_lookupAnswers : (handLease m s).lookupAnswers = s.lookupAnswers := by cases s; rfl
@[simp] theorem handLease_lookupRead : (handLease m s).lookupRead = s.lookupRead := by cases s; rfl
@[simp] theorem handLease_lkSel : (handLease m s).lkSel = s.lkSel := by cases s; rfl
@[simp] theorem handLease_lkByte : (handLease m s).lkByte = s.lkByte := by cases s; rfl
@[simp] theorem handLease_assembly : (handLease m s).assembly = s.assembly := by cases s; rfl
@[simp] theorem handLease_requests : (handLease m s).requests = s.requests := by cases s; rfl
@[simp] theorem handLease_answers : (handLease m s).answers = s.answers := by cases s; rfl
@[simp] theorem handLease_answerRead : (handLease m s).answerRead = s.answerRead := by cases s; rfl
@[simp] theorem handLease_statusHeld : (handLease m s).statusHeld = s.statusHeld := by cases s; rfl
@[simp] theorem handLease_lastReadEmpty : (handLease m s).lastReadEmpty = s.lastReadEmpty := by cases s; rfl
@[simp] theorem handLease_flags : (handLease m s).flags = s.flags := by cases s; rfl
@[simp] theorem handLease_enables : (handLease m s).enables = s.enables := by cases s; rfl
@[simp] theorem handLease_rqData : (handLease m s).rqData = s.rqData := by cases s; rfl
@[simp] theorem handLease_pending : (handLease m s).pending = s.pending := by cases s; rfl

end

section

variable (s : State)

@[simp] theorem settleLease_resetLow : (settleLease s).resetLow = s.resetLow := by cases s; rfl
@[simp] theorem settleLease_regions : (settleLease s).regions = s.regions := by cases s; rfl
@[simp] theorem settleLease_clients : (settleLease s).clients = s.clients := by cases s; rfl
@[simp] theorem settleLease_bands : (settleLease s).bands = s.bands := by cases s; rfl
@[simp] theorem settleLease_parked : (settleLease s).parked = s.parked := by cases s; rfl
@[simp] theorem settleLease_panel : (settleLease s).panel = s.panel := by cases s; rfl
@[simp] theorem settleLease_engine : (settleLease s).engine = s.engine := by cases s; rfl
@[simp] theorem settleLease_committedWork : (settleLease s).committedWork = s.committedWork := by cases s; rfl
@[simp] theorem settleLease_copyEndDue : (settleLease s).copyEndDue = s.copyEndDue := by cases s; rfl
@[simp] theorem settleLease_frameCounter : (settleLease s).frameCounter = s.frameCounter := by cases s; rfl
@[simp] theorem settleLease_lineCounter : (settleLease s).lineCounter = s.lineCounter := by cases s; rfl
@[simp] theorem settleLease_snapState : (settleLease s).snapState = s.snapState := by cases s; rfl
@[simp] theorem settleLease_snapFrame : (settleLease s).snapFrame = s.snapFrame := by cases s; rfl
@[simp] theorem settleLease_listA : (settleLease s).listA = s.listA := by cases s; rfl
@[simp] theorem settleLease_listB : (settleLease s).listB = s.listB := by cases s; rfl
@[simp] theorem settleLease_showing : (settleLease s).showing = s.showing := by cases s; rfl
@[simp] theorem settleLease_builder : (settleLease s).builder = s.builder := by cases s; rfl
@[simp] theorem settleLease_spanQueue : (settleLease s).spanQueue = s.spanQueue := by cases s; rfl
@[simp] theorem settleLease_spanPort : (settleLease s).spanPort = s.spanPort := by cases s; rfl
@[simp] theorem settleLease_pointBytes : (settleLease s).pointBytes = s.pointBytes := by cases s; rfl
@[simp] theorem settleLease_points : (settleLease s).points = s.points := by cases s; rfl
@[simp] theorem settleLease_lookup : (settleLease s).lookup = s.lookup := by cases s; rfl
@[simp] theorem settleLease_lookupAnswers : (settleLease s).lookupAnswers = s.lookupAnswers := by cases s; rfl
@[simp] theorem settleLease_lookupRead : (settleLease s).lookupRead = s.lookupRead := by cases s; rfl
@[simp] theorem settleLease_lkSel : (settleLease s).lkSel = s.lkSel := by cases s; rfl
@[simp] theorem settleLease_lkByte : (settleLease s).lkByte = s.lkByte := by cases s; rfl
@[simp] theorem settleLease_assembly : (settleLease s).assembly = s.assembly := by cases s; rfl
@[simp] theorem settleLease_requests : (settleLease s).requests = s.requests := by cases s; rfl
@[simp] theorem settleLease_answers : (settleLease s).answers = s.answers := by cases s; rfl
@[simp] theorem settleLease_answerRead : (settleLease s).answerRead = s.answerRead := by cases s; rfl
@[simp] theorem settleLease_statusHeld : (settleLease s).statusHeld = s.statusHeld := by cases s; rfl
@[simp] theorem settleLease_lastReadEmpty : (settleLease s).lastReadEmpty = s.lastReadEmpty := by cases s; rfl
@[simp] theorem settleLease_flags : (settleLease s).flags = s.flags := by cases s; rfl
@[simp] theorem settleLease_enables : (settleLease s).enables = s.enables := by cases s; rfl
@[simp] theorem settleLease_rqData : (settleLease s).rqData = s.rqData := by cases s; rfl
@[simp] theorem settleLease_pending : (settleLease s).pending = s.pending := by cases s; rfl

end

section

variable (ms : List LeaseMsg) (s : State)

@[simp] theorem askLease_resetLow : (askLease ms s).resetLow = s.resetLow := by cases s; rfl
@[simp] theorem askLease_regions : (askLease ms s).regions = s.regions := by cases s; rfl
@[simp] theorem askLease_clients : (askLease ms s).clients = s.clients := by cases s; rfl
@[simp] theorem askLease_bands : (askLease ms s).bands = s.bands := by cases s; rfl
@[simp] theorem askLease_parked : (askLease ms s).parked = s.parked := by cases s; rfl
@[simp] theorem askLease_panel : (askLease ms s).panel = s.panel := by cases s; rfl
@[simp] theorem askLease_engine : (askLease ms s).engine = s.engine := by cases s; rfl
@[simp] theorem askLease_committedWork : (askLease ms s).committedWork = s.committedWork := by cases s; rfl
@[simp] theorem askLease_copyEndDue : (askLease ms s).copyEndDue = s.copyEndDue := by cases s; rfl
@[simp] theorem askLease_frameCounter : (askLease ms s).frameCounter = s.frameCounter := by cases s; rfl
@[simp] theorem askLease_lineCounter : (askLease ms s).lineCounter = s.lineCounter := by cases s; rfl
@[simp] theorem askLease_snapState : (askLease ms s).snapState = s.snapState := by cases s; rfl
@[simp] theorem askLease_snapFrame : (askLease ms s).snapFrame = s.snapFrame := by cases s; rfl
@[simp] theorem askLease_listA : (askLease ms s).listA = s.listA := by cases s; rfl
@[simp] theorem askLease_listB : (askLease ms s).listB = s.listB := by cases s; rfl
@[simp] theorem askLease_showing : (askLease ms s).showing = s.showing := by cases s; rfl
@[simp] theorem askLease_builder : (askLease ms s).builder = s.builder := by cases s; rfl
@[simp] theorem askLease_spanQueue : (askLease ms s).spanQueue = s.spanQueue := by cases s; rfl
@[simp] theorem askLease_spanPort : (askLease ms s).spanPort = s.spanPort := by cases s; rfl
@[simp] theorem askLease_pointBytes : (askLease ms s).pointBytes = s.pointBytes := by cases s; rfl
@[simp] theorem askLease_points : (askLease ms s).points = s.points := by cases s; rfl
@[simp] theorem askLease_lookup : (askLease ms s).lookup = s.lookup := by cases s; rfl
@[simp] theorem askLease_lookupAnswers : (askLease ms s).lookupAnswers = s.lookupAnswers := by cases s; rfl
@[simp] theorem askLease_lookupRead : (askLease ms s).lookupRead = s.lookupRead := by cases s; rfl
@[simp] theorem askLease_lkSel : (askLease ms s).lkSel = s.lkSel := by cases s; rfl
@[simp] theorem askLease_lkByte : (askLease ms s).lkByte = s.lkByte := by cases s; rfl
@[simp] theorem askLease_assembly : (askLease ms s).assembly = s.assembly := by cases s; rfl
@[simp] theorem askLease_requests : (askLease ms s).requests = s.requests := by cases s; rfl
@[simp] theorem askLease_answers : (askLease ms s).answers = s.answers := by cases s; rfl
@[simp] theorem askLease_answerRead : (askLease ms s).answerRead = s.answerRead := by cases s; rfl
@[simp] theorem askLease_statusHeld : (askLease ms s).statusHeld = s.statusHeld := by cases s; rfl
@[simp] theorem askLease_lastReadEmpty : (askLease ms s).lastReadEmpty = s.lastReadEmpty := by cases s; rfl
@[simp] theorem askLease_flags : (askLease ms s).flags = s.flags := by cases s; rfl
@[simp] theorem askLease_enables : (askLease ms s).enables = s.enables := by cases s; rfl
@[simp] theorem askLease_rqData : (askLease ms s).rqData = s.rqData := by cases s; rfl
@[simp] theorem askLease_pending : (askLease ms s).pending = s.pending := by cases s; rfl

end

section

variable (a : Answer) (s : State)

@[simp] theorem pushAnswer_resetLow : (pushAnswer a s).resetLow = s.resetLow := by cases s; rfl
@[simp] theorem pushAnswer_regions : (pushAnswer a s).regions = s.regions := by cases s; rfl
@[simp] theorem pushAnswer_clients : (pushAnswer a s).clients = s.clients := by cases s; rfl
@[simp] theorem pushAnswer_bands : (pushAnswer a s).bands = s.bands := by cases s; rfl
@[simp] theorem pushAnswer_parked : (pushAnswer a s).parked = s.parked := by cases s; rfl
@[simp] theorem pushAnswer_panel : (pushAnswer a s).panel = s.panel := by cases s; rfl
@[simp] theorem pushAnswer_engine : (pushAnswer a s).engine = s.engine := by cases s; rfl
@[simp] theorem pushAnswer_committedWork : (pushAnswer a s).committedWork = s.committedWork := by cases s; rfl
@[simp] theorem pushAnswer_copyEndDue : (pushAnswer a s).copyEndDue = s.copyEndDue := by cases s; rfl
@[simp] theorem pushAnswer_counters : (pushAnswer a s).counters = s.counters := by cases s; rfl
@[simp] theorem pushAnswer_lapsePending : (pushAnswer a s).lapsePending = s.lapsePending := by cases s; rfl
@[simp] theorem pushAnswer_leaseInbox : (pushAnswer a s).leaseInbox = s.leaseInbox := by cases s; rfl
@[simp] theorem pushAnswer_frameCounter : (pushAnswer a s).frameCounter = s.frameCounter := by cases s; rfl
@[simp] theorem pushAnswer_lineCounter : (pushAnswer a s).lineCounter = s.lineCounter := by cases s; rfl
@[simp] theorem pushAnswer_snapState : (pushAnswer a s).snapState = s.snapState := by cases s; rfl
@[simp] theorem pushAnswer_snapFrame : (pushAnswer a s).snapFrame = s.snapFrame := by cases s; rfl
@[simp] theorem pushAnswer_listA : (pushAnswer a s).listA = s.listA := by cases s; rfl
@[simp] theorem pushAnswer_listB : (pushAnswer a s).listB = s.listB := by cases s; rfl
@[simp] theorem pushAnswer_showing : (pushAnswer a s).showing = s.showing := by cases s; rfl
@[simp] theorem pushAnswer_builder : (pushAnswer a s).builder = s.builder := by cases s; rfl
@[simp] theorem pushAnswer_spanQueue : (pushAnswer a s).spanQueue = s.spanQueue := by cases s; rfl
@[simp] theorem pushAnswer_spanPort : (pushAnswer a s).spanPort = s.spanPort := by cases s; rfl
@[simp] theorem pushAnswer_pointBytes : (pushAnswer a s).pointBytes = s.pointBytes := by cases s; rfl
@[simp] theorem pushAnswer_points : (pushAnswer a s).points = s.points := by cases s; rfl
@[simp] theorem pushAnswer_lookup : (pushAnswer a s).lookup = s.lookup := by cases s; rfl
@[simp] theorem pushAnswer_lookupAnswers : (pushAnswer a s).lookupAnswers = s.lookupAnswers := by cases s; rfl
@[simp] theorem pushAnswer_lookupRead : (pushAnswer a s).lookupRead = s.lookupRead := by cases s; rfl
@[simp] theorem pushAnswer_lkSel : (pushAnswer a s).lkSel = s.lkSel := by cases s; rfl
@[simp] theorem pushAnswer_lkByte : (pushAnswer a s).lkByte = s.lkByte := by cases s; rfl
@[simp] theorem pushAnswer_assembly : (pushAnswer a s).assembly = s.assembly := by cases s; rfl
@[simp] theorem pushAnswer_requests : (pushAnswer a s).requests = s.requests := by cases s; rfl
@[simp] theorem pushAnswer_answerRead : (pushAnswer a s).answerRead = s.answerRead := by cases s; rfl
@[simp] theorem pushAnswer_statusHeld : (pushAnswer a s).statusHeld = s.statusHeld := by cases s; rfl
@[simp] theorem pushAnswer_lastReadEmpty : (pushAnswer a s).lastReadEmpty = s.lastReadEmpty := by cases s; rfl
@[simp] theorem pushAnswer_flags : (pushAnswer a s).flags = s.flags := by cases s; rfl
@[simp] theorem pushAnswer_enables : (pushAnswer a s).enables = s.enables := by cases s; rfl
@[simp] theorem pushAnswer_rqData : (pushAnswer a s).rqData = s.rqData := by cases s; rfl
@[simp] theorem pushAnswer_pending : (pushAnswer a s).pending = s.pending := by cases s; rfl

end

section

variable (s : State)

@[simp] theorem finishPiece_resetLow : (finishPiece s).resetLow = s.resetLow := by cases s; rfl
@[simp] theorem finishPiece_regions : (finishPiece s).regions = s.regions := by cases s; rfl
@[simp] theorem finishPiece_clients : (finishPiece s).clients = s.clients := by cases s; rfl
@[simp] theorem finishPiece_bands : (finishPiece s).bands = s.bands := by cases s; rfl
@[simp] theorem finishPiece_parked : (finishPiece s).parked = s.parked := by cases s; rfl
@[simp] theorem finishPiece_panel : (finishPiece s).panel = s.panel := by cases s; rfl
@[simp] theorem finishPiece_committedWork : (finishPiece s).committedWork = s.committedWork := by cases s; rfl
@[simp] theorem finishPiece_copyEndDue : (finishPiece s).copyEndDue = s.copyEndDue := by cases s; rfl
@[simp] theorem finishPiece_counters : (finishPiece s).counters = s.counters := by cases s; rfl
@[simp] theorem finishPiece_lapsePending : (finishPiece s).lapsePending = s.lapsePending := by cases s; rfl
@[simp] theorem finishPiece_leaseInbox : (finishPiece s).leaseInbox = s.leaseInbox := by cases s; rfl
@[simp] theorem finishPiece_frameCounter : (finishPiece s).frameCounter = s.frameCounter := by cases s; rfl
@[simp] theorem finishPiece_lineCounter : (finishPiece s).lineCounter = s.lineCounter := by cases s; rfl
@[simp] theorem finishPiece_snapState : (finishPiece s).snapState = s.snapState := by cases s; rfl
@[simp] theorem finishPiece_snapFrame : (finishPiece s).snapFrame = s.snapFrame := by cases s; rfl
@[simp] theorem finishPiece_listA : (finishPiece s).listA = s.listA := by cases s; rfl
@[simp] theorem finishPiece_listB : (finishPiece s).listB = s.listB := by cases s; rfl
@[simp] theorem finishPiece_showing : (finishPiece s).showing = s.showing := by cases s; rfl
@[simp] theorem finishPiece_builder : (finishPiece s).builder = s.builder := by cases s; rfl
@[simp] theorem finishPiece_spanQueue : (finishPiece s).spanQueue = s.spanQueue := by cases s; rfl
@[simp] theorem finishPiece_spanPort : (finishPiece s).spanPort = s.spanPort := by cases s; rfl
@[simp] theorem finishPiece_pointBytes : (finishPiece s).pointBytes = s.pointBytes := by cases s; rfl
@[simp] theorem finishPiece_points : (finishPiece s).points = s.points := by cases s; rfl
@[simp] theorem finishPiece_lookup : (finishPiece s).lookup = s.lookup := by cases s; rfl
@[simp] theorem finishPiece_lookupAnswers : (finishPiece s).lookupAnswers = s.lookupAnswers := by cases s; rfl
@[simp] theorem finishPiece_lookupRead : (finishPiece s).lookupRead = s.lookupRead := by cases s; rfl
@[simp] theorem finishPiece_lkSel : (finishPiece s).lkSel = s.lkSel := by cases s; rfl
@[simp] theorem finishPiece_lkByte : (finishPiece s).lkByte = s.lkByte := by cases s; rfl
@[simp] theorem finishPiece_assembly : (finishPiece s).assembly = s.assembly := by cases s; rfl
@[simp] theorem finishPiece_requests : (finishPiece s).requests = s.requests := by cases s; rfl
@[simp] theorem finishPiece_answers : (finishPiece s).answers = s.answers := by cases s; rfl
@[simp] theorem finishPiece_answerRead : (finishPiece s).answerRead = s.answerRead := by cases s; rfl
@[simp] theorem finishPiece_statusHeld : (finishPiece s).statusHeld = s.statusHeld := by cases s; rfl
@[simp] theorem finishPiece_lastReadEmpty : (finishPiece s).lastReadEmpty = s.lastReadEmpty := by cases s; rfl
@[simp] theorem finishPiece_flags : (finishPiece s).flags = s.flags := by cases s; rfl
@[simp] theorem finishPiece_enables : (finishPiece s).enables = s.enables := by cases s; rfl
@[simp] theorem finishPiece_rqData : (finishPiece s).rqData = s.rqData := by cases s; rfl
@[simp] theorem finishPiece_pending : (finishPiece s).pending = s.pending := by cases s; rfl

end

section

variable (s : State)

@[simp] theorem finishApplication_resetLow : (finishApplication s).resetLow = s.resetLow := by cases s; rfl
@[simp] theorem finishApplication_regions : (finishApplication s).regions = s.regions := by cases s; rfl
@[simp] theorem finishApplication_clients : (finishApplication s).clients = s.clients := by cases s; rfl
@[simp] theorem finishApplication_bands : (finishApplication s).bands = s.bands := by cases s; rfl
@[simp] theorem finishApplication_parked : (finishApplication s).parked = s.parked := by cases s; rfl
@[simp] theorem finishApplication_panel : (finishApplication s).panel = s.panel := by cases s; rfl
@[simp] theorem finishApplication_committedWork : (finishApplication s).committedWork = s.committedWork := by cases s; rfl
@[simp] theorem finishApplication_counters : (finishApplication s).counters = s.counters := by cases s; rfl
@[simp] theorem finishApplication_lapsePending : (finishApplication s).lapsePending = s.lapsePending := by cases s; rfl
@[simp] theorem finishApplication_leaseInbox : (finishApplication s).leaseInbox = s.leaseInbox := by cases s; rfl
@[simp] theorem finishApplication_frameCounter : (finishApplication s).frameCounter = s.frameCounter := by cases s; rfl
@[simp] theorem finishApplication_lineCounter : (finishApplication s).lineCounter = s.lineCounter := by cases s; rfl
@[simp] theorem finishApplication_snapState : (finishApplication s).snapState = s.snapState := by cases s; rfl
@[simp] theorem finishApplication_snapFrame : (finishApplication s).snapFrame = s.snapFrame := by cases s; rfl
@[simp] theorem finishApplication_listA : (finishApplication s).listA = s.listA := by cases s; rfl
@[simp] theorem finishApplication_listB : (finishApplication s).listB = s.listB := by cases s; rfl
@[simp] theorem finishApplication_showing : (finishApplication s).showing = s.showing := by cases s; rfl
@[simp] theorem finishApplication_builder : (finishApplication s).builder = s.builder := by cases s; rfl
@[simp] theorem finishApplication_spanQueue : (finishApplication s).spanQueue = s.spanQueue := by cases s; rfl
@[simp] theorem finishApplication_spanPort : (finishApplication s).spanPort = s.spanPort := by cases s; rfl
@[simp] theorem finishApplication_pointBytes : (finishApplication s).pointBytes = s.pointBytes := by cases s; rfl
@[simp] theorem finishApplication_points : (finishApplication s).points = s.points := by cases s; rfl
@[simp] theorem finishApplication_lookup : (finishApplication s).lookup = s.lookup := by cases s; rfl
@[simp] theorem finishApplication_lookupAnswers : (finishApplication s).lookupAnswers = s.lookupAnswers := by cases s; rfl
@[simp] theorem finishApplication_lookupRead : (finishApplication s).lookupRead = s.lookupRead := by cases s; rfl
@[simp] theorem finishApplication_lkSel : (finishApplication s).lkSel = s.lkSel := by cases s; rfl
@[simp] theorem finishApplication_lkByte : (finishApplication s).lkByte = s.lkByte := by cases s; rfl
@[simp] theorem finishApplication_assembly : (finishApplication s).assembly = s.assembly := by cases s; rfl
@[simp] theorem finishApplication_requests : (finishApplication s).requests = s.requests := by cases s; rfl
@[simp] theorem finishApplication_answers : (finishApplication s).answers = s.answers := by cases s; rfl
@[simp] theorem finishApplication_answerRead : (finishApplication s).answerRead = s.answerRead := by cases s; rfl
@[simp] theorem finishApplication_statusHeld : (finishApplication s).statusHeld = s.statusHeld := by cases s; rfl
@[simp] theorem finishApplication_lastReadEmpty : (finishApplication s).lastReadEmpty = s.lastReadEmpty := by cases s; rfl
@[simp] theorem finishApplication_flags : (finishApplication s).flags = s.flags := by cases s; rfl
@[simp] theorem finishApplication_enables : (finishApplication s).enables = s.enables := by cases s; rfl
@[simp] theorem finishApplication_rqData : (finishApplication s).rqData = s.rqData := by cases s; rfl
@[simp] theorem finishApplication_pending : (finishApplication s).pending = s.pending := by cases s; rfl

end

section

variable (s : State)

@[simp] theorem State.setSnapshotLate_resetLow : (s.setSnapshotLate).resetLow = s.resetLow := by cases s; rfl
@[simp] theorem State.setSnapshotLate_regions : (s.setSnapshotLate).regions = s.regions := by cases s; rfl
@[simp] theorem State.setSnapshotLate_clients : (s.setSnapshotLate).clients = s.clients := by cases s; rfl
@[simp] theorem State.setSnapshotLate_bands : (s.setSnapshotLate).bands = s.bands := by cases s; rfl
@[simp] theorem State.setSnapshotLate_parked : (s.setSnapshotLate).parked = s.parked := by cases s; rfl
@[simp] theorem State.setSnapshotLate_panel : (s.setSnapshotLate).panel = s.panel := by cases s; rfl
@[simp] theorem State.setSnapshotLate_engine : (s.setSnapshotLate).engine = s.engine := by cases s; rfl
@[simp] theorem State.setSnapshotLate_committedWork : (s.setSnapshotLate).committedWork = s.committedWork := by cases s; rfl
@[simp] theorem State.setSnapshotLate_copyEndDue : (s.setSnapshotLate).copyEndDue = s.copyEndDue := by cases s; rfl
@[simp] theorem State.setSnapshotLate_counters : (s.setSnapshotLate).counters = s.counters := by cases s; rfl
@[simp] theorem State.setSnapshotLate_lapsePending : (s.setSnapshotLate).lapsePending = s.lapsePending := by cases s; rfl
@[simp] theorem State.setSnapshotLate_leaseInbox : (s.setSnapshotLate).leaseInbox = s.leaseInbox := by cases s; rfl
@[simp] theorem State.setSnapshotLate_frameCounter : (s.setSnapshotLate).frameCounter = s.frameCounter := by cases s; rfl
@[simp] theorem State.setSnapshotLate_lineCounter : (s.setSnapshotLate).lineCounter = s.lineCounter := by cases s; rfl
@[simp] theorem State.setSnapshotLate_snapState : (s.setSnapshotLate).snapState = s.snapState := by cases s; rfl
@[simp] theorem State.setSnapshotLate_snapFrame : (s.setSnapshotLate).snapFrame = s.snapFrame := by cases s; rfl
@[simp] theorem State.setSnapshotLate_listA : (s.setSnapshotLate).listA = s.listA := by cases s; rfl
@[simp] theorem State.setSnapshotLate_listB : (s.setSnapshotLate).listB = s.listB := by cases s; rfl
@[simp] theorem State.setSnapshotLate_showing : (s.setSnapshotLate).showing = s.showing := by cases s; rfl
@[simp] theorem State.setSnapshotLate_builder : (s.setSnapshotLate).builder = s.builder := by cases s; rfl
@[simp] theorem State.setSnapshotLate_spanQueue : (s.setSnapshotLate).spanQueue = s.spanQueue := by cases s; rfl
@[simp] theorem State.setSnapshotLate_spanPort : (s.setSnapshotLate).spanPort = s.spanPort := by cases s; rfl
@[simp] theorem State.setSnapshotLate_pointBytes : (s.setSnapshotLate).pointBytes = s.pointBytes := by cases s; rfl
@[simp] theorem State.setSnapshotLate_points : (s.setSnapshotLate).points = s.points := by cases s; rfl
@[simp] theorem State.setSnapshotLate_lookup : (s.setSnapshotLate).lookup = s.lookup := by cases s; rfl
@[simp] theorem State.setSnapshotLate_lookupAnswers : (s.setSnapshotLate).lookupAnswers = s.lookupAnswers := by cases s; rfl
@[simp] theorem State.setSnapshotLate_lookupRead : (s.setSnapshotLate).lookupRead = s.lookupRead := by cases s; rfl
@[simp] theorem State.setSnapshotLate_lkSel : (s.setSnapshotLate).lkSel = s.lkSel := by cases s; rfl
@[simp] theorem State.setSnapshotLate_lkByte : (s.setSnapshotLate).lkByte = s.lkByte := by cases s; rfl
@[simp] theorem State.setSnapshotLate_assembly : (s.setSnapshotLate).assembly = s.assembly := by cases s; rfl
@[simp] theorem State.setSnapshotLate_requests : (s.setSnapshotLate).requests = s.requests := by cases s; rfl
@[simp] theorem State.setSnapshotLate_answers : (s.setSnapshotLate).answers = s.answers := by cases s; rfl
@[simp] theorem State.setSnapshotLate_answerRead : (s.setSnapshotLate).answerRead = s.answerRead := by cases s; rfl
@[simp] theorem State.setSnapshotLate_statusHeld : (s.setSnapshotLate).statusHeld = s.statusHeld := by cases s; rfl
@[simp] theorem State.setSnapshotLate_lastReadEmpty : (s.setSnapshotLate).lastReadEmpty = s.lastReadEmpty := by cases s; rfl
@[simp] theorem State.setSnapshotLate_enables : (s.setSnapshotLate).enables = s.enables := by cases s; rfl
@[simp] theorem State.setSnapshotLate_rqData : (s.setSnapshotLate).rqData = s.rqData := by cases s; rfl
@[simp] theorem State.setSnapshotLate_pending : (s.setSnapshotLate).pending = s.pending := by cases s; rfl

end

section

variable (s : State)

@[simp] theorem State.setLineDropped_resetLow : (s.setLineDropped).resetLow = s.resetLow := by cases s; rfl
@[simp] theorem State.setLineDropped_regions : (s.setLineDropped).regions = s.regions := by cases s; rfl
@[simp] theorem State.setLineDropped_clients : (s.setLineDropped).clients = s.clients := by cases s; rfl
@[simp] theorem State.setLineDropped_bands : (s.setLineDropped).bands = s.bands := by cases s; rfl
@[simp] theorem State.setLineDropped_parked : (s.setLineDropped).parked = s.parked := by cases s; rfl
@[simp] theorem State.setLineDropped_panel : (s.setLineDropped).panel = s.panel := by cases s; rfl
@[simp] theorem State.setLineDropped_engine : (s.setLineDropped).engine = s.engine := by cases s; rfl
@[simp] theorem State.setLineDropped_committedWork : (s.setLineDropped).committedWork = s.committedWork := by cases s; rfl
@[simp] theorem State.setLineDropped_copyEndDue : (s.setLineDropped).copyEndDue = s.copyEndDue := by cases s; rfl
@[simp] theorem State.setLineDropped_counters : (s.setLineDropped).counters = s.counters := by cases s; rfl
@[simp] theorem State.setLineDropped_lapsePending : (s.setLineDropped).lapsePending = s.lapsePending := by cases s; rfl
@[simp] theorem State.setLineDropped_leaseInbox : (s.setLineDropped).leaseInbox = s.leaseInbox := by cases s; rfl
@[simp] theorem State.setLineDropped_frameCounter : (s.setLineDropped).frameCounter = s.frameCounter := by cases s; rfl
@[simp] theorem State.setLineDropped_lineCounter : (s.setLineDropped).lineCounter = s.lineCounter := by cases s; rfl
@[simp] theorem State.setLineDropped_snapState : (s.setLineDropped).snapState = s.snapState := by cases s; rfl
@[simp] theorem State.setLineDropped_snapFrame : (s.setLineDropped).snapFrame = s.snapFrame := by cases s; rfl
@[simp] theorem State.setLineDropped_listA : (s.setLineDropped).listA = s.listA := by cases s; rfl
@[simp] theorem State.setLineDropped_listB : (s.setLineDropped).listB = s.listB := by cases s; rfl
@[simp] theorem State.setLineDropped_showing : (s.setLineDropped).showing = s.showing := by cases s; rfl
@[simp] theorem State.setLineDropped_builder : (s.setLineDropped).builder = s.builder := by cases s; rfl
@[simp] theorem State.setLineDropped_spanQueue : (s.setLineDropped).spanQueue = s.spanQueue := by cases s; rfl
@[simp] theorem State.setLineDropped_spanPort : (s.setLineDropped).spanPort = s.spanPort := by cases s; rfl
@[simp] theorem State.setLineDropped_pointBytes : (s.setLineDropped).pointBytes = s.pointBytes := by cases s; rfl
@[simp] theorem State.setLineDropped_points : (s.setLineDropped).points = s.points := by cases s; rfl
@[simp] theorem State.setLineDropped_lookup : (s.setLineDropped).lookup = s.lookup := by cases s; rfl
@[simp] theorem State.setLineDropped_lookupAnswers : (s.setLineDropped).lookupAnswers = s.lookupAnswers := by cases s; rfl
@[simp] theorem State.setLineDropped_lookupRead : (s.setLineDropped).lookupRead = s.lookupRead := by cases s; rfl
@[simp] theorem State.setLineDropped_lkSel : (s.setLineDropped).lkSel = s.lkSel := by cases s; rfl
@[simp] theorem State.setLineDropped_lkByte : (s.setLineDropped).lkByte = s.lkByte := by cases s; rfl
@[simp] theorem State.setLineDropped_assembly : (s.setLineDropped).assembly = s.assembly := by cases s; rfl
@[simp] theorem State.setLineDropped_requests : (s.setLineDropped).requests = s.requests := by cases s; rfl
@[simp] theorem State.setLineDropped_answers : (s.setLineDropped).answers = s.answers := by cases s; rfl
@[simp] theorem State.setLineDropped_answerRead : (s.setLineDropped).answerRead = s.answerRead := by cases s; rfl
@[simp] theorem State.setLineDropped_statusHeld : (s.setLineDropped).statusHeld = s.statusHeld := by cases s; rfl
@[simp] theorem State.setLineDropped_lastReadEmpty : (s.setLineDropped).lastReadEmpty = s.lastReadEmpty := by cases s; rfl
@[simp] theorem State.setLineDropped_enables : (s.setLineDropped).enables = s.enables := by cases s; rfl
@[simp] theorem State.setLineDropped_rqData : (s.setLineDropped).rqData = s.rqData := by cases s; rfl
@[simp] theorem State.setLineDropped_pending : (s.setLineDropped).pending = s.pending := by cases s; rfl

end

section

variable (s : State)

@[simp] theorem State.setSpanOverflow_resetLow : (s.setSpanOverflow).resetLow = s.resetLow := by cases s; rfl
@[simp] theorem State.setSpanOverflow_regions : (s.setSpanOverflow).regions = s.regions := by cases s; rfl
@[simp] theorem State.setSpanOverflow_clients : (s.setSpanOverflow).clients = s.clients := by cases s; rfl
@[simp] theorem State.setSpanOverflow_bands : (s.setSpanOverflow).bands = s.bands := by cases s; rfl
@[simp] theorem State.setSpanOverflow_parked : (s.setSpanOverflow).parked = s.parked := by cases s; rfl
@[simp] theorem State.setSpanOverflow_panel : (s.setSpanOverflow).panel = s.panel := by cases s; rfl
@[simp] theorem State.setSpanOverflow_engine : (s.setSpanOverflow).engine = s.engine := by cases s; rfl
@[simp] theorem State.setSpanOverflow_committedWork : (s.setSpanOverflow).committedWork = s.committedWork := by cases s; rfl
@[simp] theorem State.setSpanOverflow_copyEndDue : (s.setSpanOverflow).copyEndDue = s.copyEndDue := by cases s; rfl
@[simp] theorem State.setSpanOverflow_counters : (s.setSpanOverflow).counters = s.counters := by cases s; rfl
@[simp] theorem State.setSpanOverflow_lapsePending : (s.setSpanOverflow).lapsePending = s.lapsePending := by cases s; rfl
@[simp] theorem State.setSpanOverflow_leaseInbox : (s.setSpanOverflow).leaseInbox = s.leaseInbox := by cases s; rfl
@[simp] theorem State.setSpanOverflow_frameCounter : (s.setSpanOverflow).frameCounter = s.frameCounter := by cases s; rfl
@[simp] theorem State.setSpanOverflow_lineCounter : (s.setSpanOverflow).lineCounter = s.lineCounter := by cases s; rfl
@[simp] theorem State.setSpanOverflow_snapState : (s.setSpanOverflow).snapState = s.snapState := by cases s; rfl
@[simp] theorem State.setSpanOverflow_snapFrame : (s.setSpanOverflow).snapFrame = s.snapFrame := by cases s; rfl
@[simp] theorem State.setSpanOverflow_listA : (s.setSpanOverflow).listA = s.listA := by cases s; rfl
@[simp] theorem State.setSpanOverflow_listB : (s.setSpanOverflow).listB = s.listB := by cases s; rfl
@[simp] theorem State.setSpanOverflow_showing : (s.setSpanOverflow).showing = s.showing := by cases s; rfl
@[simp] theorem State.setSpanOverflow_builder : (s.setSpanOverflow).builder = s.builder := by cases s; rfl
@[simp] theorem State.setSpanOverflow_spanQueue : (s.setSpanOverflow).spanQueue = s.spanQueue := by cases s; rfl
@[simp] theorem State.setSpanOverflow_spanPort : (s.setSpanOverflow).spanPort = s.spanPort := by cases s; rfl
@[simp] theorem State.setSpanOverflow_pointBytes : (s.setSpanOverflow).pointBytes = s.pointBytes := by cases s; rfl
@[simp] theorem State.setSpanOverflow_points : (s.setSpanOverflow).points = s.points := by cases s; rfl
@[simp] theorem State.setSpanOverflow_lookup : (s.setSpanOverflow).lookup = s.lookup := by cases s; rfl
@[simp] theorem State.setSpanOverflow_lookupAnswers : (s.setSpanOverflow).lookupAnswers = s.lookupAnswers := by cases s; rfl
@[simp] theorem State.setSpanOverflow_lookupRead : (s.setSpanOverflow).lookupRead = s.lookupRead := by cases s; rfl
@[simp] theorem State.setSpanOverflow_lkSel : (s.setSpanOverflow).lkSel = s.lkSel := by cases s; rfl
@[simp] theorem State.setSpanOverflow_lkByte : (s.setSpanOverflow).lkByte = s.lkByte := by cases s; rfl
@[simp] theorem State.setSpanOverflow_assembly : (s.setSpanOverflow).assembly = s.assembly := by cases s; rfl
@[simp] theorem State.setSpanOverflow_requests : (s.setSpanOverflow).requests = s.requests := by cases s; rfl
@[simp] theorem State.setSpanOverflow_answers : (s.setSpanOverflow).answers = s.answers := by cases s; rfl
@[simp] theorem State.setSpanOverflow_answerRead : (s.setSpanOverflow).answerRead = s.answerRead := by cases s; rfl
@[simp] theorem State.setSpanOverflow_statusHeld : (s.setSpanOverflow).statusHeld = s.statusHeld := by cases s; rfl
@[simp] theorem State.setSpanOverflow_lastReadEmpty : (s.setSpanOverflow).lastReadEmpty = s.lastReadEmpty := by cases s; rfl
@[simp] theorem State.setSpanOverflow_enables : (s.setSpanOverflow).enables = s.enables := by cases s; rfl
@[simp] theorem State.setSpanOverflow_rqData : (s.setSpanOverflow).rqData = s.rqData := by cases s; rfl
@[simp] theorem State.setSpanOverflow_pending : (s.setSpanOverflow).pending = s.pending := by cases s; rfl

end

section

variable (s : State)

@[simp] theorem State.setRequestOverrun_resetLow : (s.setRequestOverrun).resetLow = s.resetLow := by cases s; rfl
@[simp] theorem State.setRequestOverrun_regions : (s.setRequestOverrun).regions = s.regions := by cases s; rfl
@[simp] theorem State.setRequestOverrun_clients : (s.setRequestOverrun).clients = s.clients := by cases s; rfl
@[simp] theorem State.setRequestOverrun_bands : (s.setRequestOverrun).bands = s.bands := by cases s; rfl
@[simp] theorem State.setRequestOverrun_parked : (s.setRequestOverrun).parked = s.parked := by cases s; rfl
@[simp] theorem State.setRequestOverrun_panel : (s.setRequestOverrun).panel = s.panel := by cases s; rfl
@[simp] theorem State.setRequestOverrun_engine : (s.setRequestOverrun).engine = s.engine := by cases s; rfl
@[simp] theorem State.setRequestOverrun_committedWork : (s.setRequestOverrun).committedWork = s.committedWork := by cases s; rfl
@[simp] theorem State.setRequestOverrun_copyEndDue : (s.setRequestOverrun).copyEndDue = s.copyEndDue := by cases s; rfl
@[simp] theorem State.setRequestOverrun_counters : (s.setRequestOverrun).counters = s.counters := by cases s; rfl
@[simp] theorem State.setRequestOverrun_lapsePending : (s.setRequestOverrun).lapsePending = s.lapsePending := by cases s; rfl
@[simp] theorem State.setRequestOverrun_leaseInbox : (s.setRequestOverrun).leaseInbox = s.leaseInbox := by cases s; rfl
@[simp] theorem State.setRequestOverrun_frameCounter : (s.setRequestOverrun).frameCounter = s.frameCounter := by cases s; rfl
@[simp] theorem State.setRequestOverrun_lineCounter : (s.setRequestOverrun).lineCounter = s.lineCounter := by cases s; rfl
@[simp] theorem State.setRequestOverrun_snapState : (s.setRequestOverrun).snapState = s.snapState := by cases s; rfl
@[simp] theorem State.setRequestOverrun_snapFrame : (s.setRequestOverrun).snapFrame = s.snapFrame := by cases s; rfl
@[simp] theorem State.setRequestOverrun_listA : (s.setRequestOverrun).listA = s.listA := by cases s; rfl
@[simp] theorem State.setRequestOverrun_listB : (s.setRequestOverrun).listB = s.listB := by cases s; rfl
@[simp] theorem State.setRequestOverrun_showing : (s.setRequestOverrun).showing = s.showing := by cases s; rfl
@[simp] theorem State.setRequestOverrun_builder : (s.setRequestOverrun).builder = s.builder := by cases s; rfl
@[simp] theorem State.setRequestOverrun_spanQueue : (s.setRequestOverrun).spanQueue = s.spanQueue := by cases s; rfl
@[simp] theorem State.setRequestOverrun_spanPort : (s.setRequestOverrun).spanPort = s.spanPort := by cases s; rfl
@[simp] theorem State.setRequestOverrun_pointBytes : (s.setRequestOverrun).pointBytes = s.pointBytes := by cases s; rfl
@[simp] theorem State.setRequestOverrun_points : (s.setRequestOverrun).points = s.points := by cases s; rfl
@[simp] theorem State.setRequestOverrun_lookup : (s.setRequestOverrun).lookup = s.lookup := by cases s; rfl
@[simp] theorem State.setRequestOverrun_lookupAnswers : (s.setRequestOverrun).lookupAnswers = s.lookupAnswers := by cases s; rfl
@[simp] theorem State.setRequestOverrun_lookupRead : (s.setRequestOverrun).lookupRead = s.lookupRead := by cases s; rfl
@[simp] theorem State.setRequestOverrun_lkSel : (s.setRequestOverrun).lkSel = s.lkSel := by cases s; rfl
@[simp] theorem State.setRequestOverrun_lkByte : (s.setRequestOverrun).lkByte = s.lkByte := by cases s; rfl
@[simp] theorem State.setRequestOverrun_assembly : (s.setRequestOverrun).assembly = s.assembly := by cases s; rfl
@[simp] theorem State.setRequestOverrun_requests : (s.setRequestOverrun).requests = s.requests := by cases s; rfl
@[simp] theorem State.setRequestOverrun_answers : (s.setRequestOverrun).answers = s.answers := by cases s; rfl
@[simp] theorem State.setRequestOverrun_answerRead : (s.setRequestOverrun).answerRead = s.answerRead := by cases s; rfl
@[simp] theorem State.setRequestOverrun_statusHeld : (s.setRequestOverrun).statusHeld = s.statusHeld := by cases s; rfl
@[simp] theorem State.setRequestOverrun_lastReadEmpty : (s.setRequestOverrun).lastReadEmpty = s.lastReadEmpty := by cases s; rfl
@[simp] theorem State.setRequestOverrun_enables : (s.setRequestOverrun).enables = s.enables := by cases s; rfl
@[simp] theorem State.setRequestOverrun_rqData : (s.setRequestOverrun).rqData = s.rqData := by cases s; rfl
@[simp] theorem State.setRequestOverrun_pending : (s.setRequestOverrun).pending = s.pending := by cases s; rfl

end

section

variable (s : State)

@[simp] theorem State.setLookupOverrun_resetLow : (s.setLookupOverrun).resetLow = s.resetLow := by cases s; rfl
@[simp] theorem State.setLookupOverrun_regions : (s.setLookupOverrun).regions = s.regions := by cases s; rfl
@[simp] theorem State.setLookupOverrun_clients : (s.setLookupOverrun).clients = s.clients := by cases s; rfl
@[simp] theorem State.setLookupOverrun_bands : (s.setLookupOverrun).bands = s.bands := by cases s; rfl
@[simp] theorem State.setLookupOverrun_parked : (s.setLookupOverrun).parked = s.parked := by cases s; rfl
@[simp] theorem State.setLookupOverrun_panel : (s.setLookupOverrun).panel = s.panel := by cases s; rfl
@[simp] theorem State.setLookupOverrun_engine : (s.setLookupOverrun).engine = s.engine := by cases s; rfl
@[simp] theorem State.setLookupOverrun_committedWork : (s.setLookupOverrun).committedWork = s.committedWork := by cases s; rfl
@[simp] theorem State.setLookupOverrun_copyEndDue : (s.setLookupOverrun).copyEndDue = s.copyEndDue := by cases s; rfl
@[simp] theorem State.setLookupOverrun_counters : (s.setLookupOverrun).counters = s.counters := by cases s; rfl
@[simp] theorem State.setLookupOverrun_lapsePending : (s.setLookupOverrun).lapsePending = s.lapsePending := by cases s; rfl
@[simp] theorem State.setLookupOverrun_leaseInbox : (s.setLookupOverrun).leaseInbox = s.leaseInbox := by cases s; rfl
@[simp] theorem State.setLookupOverrun_frameCounter : (s.setLookupOverrun).frameCounter = s.frameCounter := by cases s; rfl
@[simp] theorem State.setLookupOverrun_lineCounter : (s.setLookupOverrun).lineCounter = s.lineCounter := by cases s; rfl
@[simp] theorem State.setLookupOverrun_snapState : (s.setLookupOverrun).snapState = s.snapState := by cases s; rfl
@[simp] theorem State.setLookupOverrun_snapFrame : (s.setLookupOverrun).snapFrame = s.snapFrame := by cases s; rfl
@[simp] theorem State.setLookupOverrun_listA : (s.setLookupOverrun).listA = s.listA := by cases s; rfl
@[simp] theorem State.setLookupOverrun_listB : (s.setLookupOverrun).listB = s.listB := by cases s; rfl
@[simp] theorem State.setLookupOverrun_showing : (s.setLookupOverrun).showing = s.showing := by cases s; rfl
@[simp] theorem State.setLookupOverrun_builder : (s.setLookupOverrun).builder = s.builder := by cases s; rfl
@[simp] theorem State.setLookupOverrun_spanQueue : (s.setLookupOverrun).spanQueue = s.spanQueue := by cases s; rfl
@[simp] theorem State.setLookupOverrun_spanPort : (s.setLookupOverrun).spanPort = s.spanPort := by cases s; rfl
@[simp] theorem State.setLookupOverrun_pointBytes : (s.setLookupOverrun).pointBytes = s.pointBytes := by cases s; rfl
@[simp] theorem State.setLookupOverrun_points : (s.setLookupOverrun).points = s.points := by cases s; rfl
@[simp] theorem State.setLookupOverrun_lookup : (s.setLookupOverrun).lookup = s.lookup := by cases s; rfl
@[simp] theorem State.setLookupOverrun_lookupAnswers : (s.setLookupOverrun).lookupAnswers = s.lookupAnswers := by cases s; rfl
@[simp] theorem State.setLookupOverrun_lookupRead : (s.setLookupOverrun).lookupRead = s.lookupRead := by cases s; rfl
@[simp] theorem State.setLookupOverrun_lkSel : (s.setLookupOverrun).lkSel = s.lkSel := by cases s; rfl
@[simp] theorem State.setLookupOverrun_lkByte : (s.setLookupOverrun).lkByte = s.lkByte := by cases s; rfl
@[simp] theorem State.setLookupOverrun_assembly : (s.setLookupOverrun).assembly = s.assembly := by cases s; rfl
@[simp] theorem State.setLookupOverrun_requests : (s.setLookupOverrun).requests = s.requests := by cases s; rfl
@[simp] theorem State.setLookupOverrun_answers : (s.setLookupOverrun).answers = s.answers := by cases s; rfl
@[simp] theorem State.setLookupOverrun_answerRead : (s.setLookupOverrun).answerRead = s.answerRead := by cases s; rfl
@[simp] theorem State.setLookupOverrun_statusHeld : (s.setLookupOverrun).statusHeld = s.statusHeld := by cases s; rfl
@[simp] theorem State.setLookupOverrun_lastReadEmpty : (s.setLookupOverrun).lastReadEmpty = s.lastReadEmpty := by cases s; rfl
@[simp] theorem State.setLookupOverrun_enables : (s.setLookupOverrun).enables = s.enables := by cases s; rfl
@[simp] theorem State.setLookupOverrun_rqData : (s.setLookupOverrun).rqData = s.rqData := by cases s; rfl
@[simp] theorem State.setLookupOverrun_pending : (s.setLookupOverrun).pending = s.pending := by cases s; rfl

end

section

variable (k : ClientId) (s : State)

@[simp] theorem editStep_resetLow : (editStep k s).resetLow = s.resetLow := by cases s; rfl
@[simp] theorem editStep_clients : (editStep k s).clients = s.clients := by cases s; rfl
@[simp] theorem editStep_bands : (editStep k s).bands = s.bands := by cases s; rfl
@[simp] theorem editStep_parked : (editStep k s).parked = s.parked := by cases s; rfl
@[simp] theorem editStep_panel : (editStep k s).panel = s.panel := by cases s; rfl
@[simp] theorem editStep_engine : (editStep k s).engine = s.engine := by cases s; rfl
@[simp] theorem editStep_committedWork : (editStep k s).committedWork = s.committedWork := by cases s; rfl
@[simp] theorem editStep_copyEndDue : (editStep k s).copyEndDue = s.copyEndDue := by cases s; rfl
@[simp] theorem editStep_counters : (editStep k s).counters = s.counters := by cases s; rfl
@[simp] theorem editStep_lapsePending : (editStep k s).lapsePending = s.lapsePending := by cases s; rfl
@[simp] theorem editStep_leaseInbox : (editStep k s).leaseInbox = s.leaseInbox := by cases s; rfl
@[simp] theorem editStep_frameCounter : (editStep k s).frameCounter = s.frameCounter := by cases s; rfl
@[simp] theorem editStep_lineCounter : (editStep k s).lineCounter = s.lineCounter := by cases s; rfl
@[simp] theorem editStep_snapState : (editStep k s).snapState = s.snapState := by cases s; rfl
@[simp] theorem editStep_snapFrame : (editStep k s).snapFrame = s.snapFrame := by cases s; rfl
@[simp] theorem editStep_listA : (editStep k s).listA = s.listA := by cases s; rfl
@[simp] theorem editStep_listB : (editStep k s).listB = s.listB := by cases s; rfl
@[simp] theorem editStep_showing : (editStep k s).showing = s.showing := by cases s; rfl
@[simp] theorem editStep_builder : (editStep k s).builder = s.builder := by cases s; rfl
@[simp] theorem editStep_spanQueue : (editStep k s).spanQueue = s.spanQueue := by cases s; rfl
@[simp] theorem editStep_spanPort : (editStep k s).spanPort = s.spanPort := by cases s; rfl
@[simp] theorem editStep_pointBytes : (editStep k s).pointBytes = s.pointBytes := by cases s; rfl
@[simp] theorem editStep_points : (editStep k s).points = s.points := by cases s; rfl
@[simp] theorem editStep_lookup : (editStep k s).lookup = s.lookup := by cases s; rfl
@[simp] theorem editStep_lookupAnswers : (editStep k s).lookupAnswers = s.lookupAnswers := by cases s; rfl
@[simp] theorem editStep_lookupRead : (editStep k s).lookupRead = s.lookupRead := by cases s; rfl
@[simp] theorem editStep_lkSel : (editStep k s).lkSel = s.lkSel := by cases s; rfl
@[simp] theorem editStep_lkByte : (editStep k s).lkByte = s.lkByte := by cases s; rfl
@[simp] theorem editStep_assembly : (editStep k s).assembly = s.assembly := by cases s; rfl
@[simp] theorem editStep_requests : (editStep k s).requests = s.requests := by cases s; rfl
@[simp] theorem editStep_answers : (editStep k s).answers = s.answers := by cases s; rfl
@[simp] theorem editStep_answerRead : (editStep k s).answerRead = s.answerRead := by cases s; rfl
@[simp] theorem editStep_statusHeld : (editStep k s).statusHeld = s.statusHeld := by cases s; rfl
@[simp] theorem editStep_lastReadEmpty : (editStep k s).lastReadEmpty = s.lastReadEmpty := by cases s; rfl
@[simp] theorem editStep_flags : (editStep k s).flags = s.flags := by cases s; rfl
@[simp] theorem editStep_enables : (editStep k s).enables = s.enables := by cases s; rfl
@[simp] theorem editStep_rqData : (editStep k s).rqData = s.rqData := by cases s; rfl
@[simp] theorem editStep_pending : (editStep k s).pending = s.pending := by cases s; rfl

end

section

variable (ids : List RegionId) (eff : Frame) (s : State)

@[simp] theorem stampStep_resetLow : (stampStep ids eff s).resetLow = s.resetLow := by cases s; rfl
@[simp] theorem stampStep_clients : (stampStep ids eff s).clients = s.clients := by cases s; rfl
@[simp] theorem stampStep_bands : (stampStep ids eff s).bands = s.bands := by cases s; rfl
@[simp] theorem stampStep_parked : (stampStep ids eff s).parked = s.parked := by cases s; rfl
@[simp] theorem stampStep_panel : (stampStep ids eff s).panel = s.panel := by cases s; rfl
@[simp] theorem stampStep_engine : (stampStep ids eff s).engine = s.engine := by cases s; rfl
@[simp] theorem stampStep_committedWork : (stampStep ids eff s).committedWork = s.committedWork := by cases s; rfl
@[simp] theorem stampStep_copyEndDue : (stampStep ids eff s).copyEndDue = s.copyEndDue := by cases s; rfl
@[simp] theorem stampStep_counters : (stampStep ids eff s).counters = s.counters := by cases s; rfl
@[simp] theorem stampStep_lapsePending : (stampStep ids eff s).lapsePending = s.lapsePending := by cases s; rfl
@[simp] theorem stampStep_leaseInbox : (stampStep ids eff s).leaseInbox = s.leaseInbox := by cases s; rfl
@[simp] theorem stampStep_frameCounter : (stampStep ids eff s).frameCounter = s.frameCounter := by cases s; rfl
@[simp] theorem stampStep_lineCounter : (stampStep ids eff s).lineCounter = s.lineCounter := by cases s; rfl
@[simp] theorem stampStep_snapState : (stampStep ids eff s).snapState = s.snapState := by cases s; rfl
@[simp] theorem stampStep_snapFrame : (stampStep ids eff s).snapFrame = s.snapFrame := by cases s; rfl
@[simp] theorem stampStep_listA : (stampStep ids eff s).listA = s.listA := by cases s; rfl
@[simp] theorem stampStep_listB : (stampStep ids eff s).listB = s.listB := by cases s; rfl
@[simp] theorem stampStep_showing : (stampStep ids eff s).showing = s.showing := by cases s; rfl
@[simp] theorem stampStep_builder : (stampStep ids eff s).builder = s.builder := by cases s; rfl
@[simp] theorem stampStep_spanQueue : (stampStep ids eff s).spanQueue = s.spanQueue := by cases s; rfl
@[simp] theorem stampStep_spanPort : (stampStep ids eff s).spanPort = s.spanPort := by cases s; rfl
@[simp] theorem stampStep_pointBytes : (stampStep ids eff s).pointBytes = s.pointBytes := by cases s; rfl
@[simp] theorem stampStep_points : (stampStep ids eff s).points = s.points := by cases s; rfl
@[simp] theorem stampStep_lookup : (stampStep ids eff s).lookup = s.lookup := by cases s; rfl
@[simp] theorem stampStep_lookupAnswers : (stampStep ids eff s).lookupAnswers = s.lookupAnswers := by cases s; rfl
@[simp] theorem stampStep_lookupRead : (stampStep ids eff s).lookupRead = s.lookupRead := by cases s; rfl
@[simp] theorem stampStep_lkSel : (stampStep ids eff s).lkSel = s.lkSel := by cases s; rfl
@[simp] theorem stampStep_lkByte : (stampStep ids eff s).lkByte = s.lkByte := by cases s; rfl
@[simp] theorem stampStep_assembly : (stampStep ids eff s).assembly = s.assembly := by cases s; rfl
@[simp] theorem stampStep_requests : (stampStep ids eff s).requests = s.requests := by cases s; rfl
@[simp] theorem stampStep_answers : (stampStep ids eff s).answers = s.answers := by cases s; rfl
@[simp] theorem stampStep_answerRead : (stampStep ids eff s).answerRead = s.answerRead := by cases s; rfl
@[simp] theorem stampStep_statusHeld : (stampStep ids eff s).statusHeld = s.statusHeld := by cases s; rfl
@[simp] theorem stampStep_lastReadEmpty : (stampStep ids eff s).lastReadEmpty = s.lastReadEmpty := by cases s; rfl
@[simp] theorem stampStep_flags : (stampStep ids eff s).flags = s.flags := by cases s; rfl
@[simp] theorem stampStep_enables : (stampStep ids eff s).enables = s.enables := by cases s; rfl
@[simp] theorem stampStep_rqData : (stampStep ids eff s).rqData = s.rqData := by cases s; rfl
@[simp] theorem stampStep_pending : (stampStep ids eff s).pending = s.pending := by cases s; rfl

end

section

variable (k : ClientId) (s : State)

@[simp] theorem moveStep_resetLow : (moveStep k s).resetLow = s.resetLow := by cases s; rfl
@[simp] theorem moveStep_regions : (moveStep k s).regions = s.regions := by cases s; rfl
@[simp] theorem moveStep_parked : (moveStep k s).parked = s.parked := by cases s; rfl
@[simp] theorem moveStep_panel : (moveStep k s).panel = s.panel := by cases s; rfl
@[simp] theorem moveStep_engine : (moveStep k s).engine = s.engine := by cases s; rfl
@[simp] theorem moveStep_committedWork : (moveStep k s).committedWork = s.committedWork := by cases s; rfl
@[simp] theorem moveStep_copyEndDue : (moveStep k s).copyEndDue = s.copyEndDue := by cases s; rfl
@[simp] theorem moveStep_counters : (moveStep k s).counters = s.counters := by cases s; rfl
@[simp] theorem moveStep_lapsePending : (moveStep k s).lapsePending = s.lapsePending := by cases s; rfl
@[simp] theorem moveStep_leaseInbox : (moveStep k s).leaseInbox = s.leaseInbox := by cases s; rfl
@[simp] theorem moveStep_frameCounter : (moveStep k s).frameCounter = s.frameCounter := by cases s; rfl
@[simp] theorem moveStep_lineCounter : (moveStep k s).lineCounter = s.lineCounter := by cases s; rfl
@[simp] theorem moveStep_snapState : (moveStep k s).snapState = s.snapState := by cases s; rfl
@[simp] theorem moveStep_snapFrame : (moveStep k s).snapFrame = s.snapFrame := by cases s; rfl
@[simp] theorem moveStep_listA : (moveStep k s).listA = s.listA := by cases s; rfl
@[simp] theorem moveStep_listB : (moveStep k s).listB = s.listB := by cases s; rfl
@[simp] theorem moveStep_showing : (moveStep k s).showing = s.showing := by cases s; rfl
@[simp] theorem moveStep_builder : (moveStep k s).builder = s.builder := by cases s; rfl
@[simp] theorem moveStep_spanQueue : (moveStep k s).spanQueue = s.spanQueue := by cases s; rfl
@[simp] theorem moveStep_spanPort : (moveStep k s).spanPort = s.spanPort := by cases s; rfl
@[simp] theorem moveStep_pointBytes : (moveStep k s).pointBytes = s.pointBytes := by cases s; rfl
@[simp] theorem moveStep_points : (moveStep k s).points = s.points := by cases s; rfl
@[simp] theorem moveStep_lookup : (moveStep k s).lookup = s.lookup := by cases s; rfl
@[simp] theorem moveStep_lookupAnswers : (moveStep k s).lookupAnswers = s.lookupAnswers := by cases s; rfl
@[simp] theorem moveStep_lookupRead : (moveStep k s).lookupRead = s.lookupRead := by cases s; rfl
@[simp] theorem moveStep_lkSel : (moveStep k s).lkSel = s.lkSel := by cases s; rfl
@[simp] theorem moveStep_lkByte : (moveStep k s).lkByte = s.lkByte := by cases s; rfl
@[simp] theorem moveStep_assembly : (moveStep k s).assembly = s.assembly := by cases s; rfl
@[simp] theorem moveStep_requests : (moveStep k s).requests = s.requests := by cases s; rfl
@[simp] theorem moveStep_answers : (moveStep k s).answers = s.answers := by cases s; rfl
@[simp] theorem moveStep_answerRead : (moveStep k s).answerRead = s.answerRead := by cases s; rfl
@[simp] theorem moveStep_statusHeld : (moveStep k s).statusHeld = s.statusHeld := by cases s; rfl
@[simp] theorem moveStep_lastReadEmpty : (moveStep k s).lastReadEmpty = s.lastReadEmpty := by cases s; rfl
@[simp] theorem moveStep_flags : (moveStep k s).flags = s.flags := by cases s; rfl
@[simp] theorem moveStep_enables : (moveStep k s).enables = s.enables := by cases s; rfl
@[simp] theorem moveStep_rqData : (moveStep k s).rqData = s.rqData := by cases s; rfl
@[simp] theorem moveStep_pending : (moveStep k s).pending = s.pending := by cases s; rfl

end

section

variable (k : ClientId) (s : State)

@[simp] theorem leavePublishing_resetLow : (leavePublishing k s).resetLow = s.resetLow := by cases s; rfl
@[simp] theorem leavePublishing_regions : (leavePublishing k s).regions = s.regions := by cases s; rfl
@[simp] theorem leavePublishing_bands : (leavePublishing k s).bands = s.bands := by cases s; rfl
@[simp] theorem leavePublishing_parked : (leavePublishing k s).parked = s.parked := by cases s; rfl
@[simp] theorem leavePublishing_panel : (leavePublishing k s).panel = s.panel := by cases s; rfl
@[simp] theorem leavePublishing_engine : (leavePublishing k s).engine = s.engine := by cases s; rfl
@[simp] theorem leavePublishing_committedWork : (leavePublishing k s).committedWork = s.committedWork := by cases s; rfl
@[simp] theorem leavePublishing_copyEndDue : (leavePublishing k s).copyEndDue = s.copyEndDue := by cases s; rfl
@[simp] theorem leavePublishing_counters : (leavePublishing k s).counters = s.counters := by cases s; rfl
@[simp] theorem leavePublishing_lapsePending : (leavePublishing k s).lapsePending = s.lapsePending := by cases s; rfl
@[simp] theorem leavePublishing_leaseInbox : (leavePublishing k s).leaseInbox = s.leaseInbox := by cases s; rfl
@[simp] theorem leavePublishing_frameCounter : (leavePublishing k s).frameCounter = s.frameCounter := by cases s; rfl
@[simp] theorem leavePublishing_lineCounter : (leavePublishing k s).lineCounter = s.lineCounter := by cases s; rfl
@[simp] theorem leavePublishing_snapState : (leavePublishing k s).snapState = s.snapState := by cases s; rfl
@[simp] theorem leavePublishing_snapFrame : (leavePublishing k s).snapFrame = s.snapFrame := by cases s; rfl
@[simp] theorem leavePublishing_listA : (leavePublishing k s).listA = s.listA := by cases s; rfl
@[simp] theorem leavePublishing_listB : (leavePublishing k s).listB = s.listB := by cases s; rfl
@[simp] theorem leavePublishing_showing : (leavePublishing k s).showing = s.showing := by cases s; rfl
@[simp] theorem leavePublishing_builder : (leavePublishing k s).builder = s.builder := by cases s; rfl
@[simp] theorem leavePublishing_spanQueue : (leavePublishing k s).spanQueue = s.spanQueue := by cases s; rfl
@[simp] theorem leavePublishing_spanPort : (leavePublishing k s).spanPort = s.spanPort := by cases s; rfl
@[simp] theorem leavePublishing_pointBytes : (leavePublishing k s).pointBytes = s.pointBytes := by cases s; rfl
@[simp] theorem leavePublishing_points : (leavePublishing k s).points = s.points := by cases s; rfl
@[simp] theorem leavePublishing_lookup : (leavePublishing k s).lookup = s.lookup := by cases s; rfl
@[simp] theorem leavePublishing_lookupAnswers : (leavePublishing k s).lookupAnswers = s.lookupAnswers := by cases s; rfl
@[simp] theorem leavePublishing_lookupRead : (leavePublishing k s).lookupRead = s.lookupRead := by cases s; rfl
@[simp] theorem leavePublishing_lkSel : (leavePublishing k s).lkSel = s.lkSel := by cases s; rfl
@[simp] theorem leavePublishing_lkByte : (leavePublishing k s).lkByte = s.lkByte := by cases s; rfl
@[simp] theorem leavePublishing_assembly : (leavePublishing k s).assembly = s.assembly := by cases s; rfl
@[simp] theorem leavePublishing_requests : (leavePublishing k s).requests = s.requests := by cases s; rfl
@[simp] theorem leavePublishing_answers : (leavePublishing k s).answers = s.answers := by cases s; rfl
@[simp] theorem leavePublishing_answerRead : (leavePublishing k s).answerRead = s.answerRead := by cases s; rfl
@[simp] theorem leavePublishing_statusHeld : (leavePublishing k s).statusHeld = s.statusHeld := by cases s; rfl
@[simp] theorem leavePublishing_lastReadEmpty : (leavePublishing k s).lastReadEmpty = s.lastReadEmpty := by cases s; rfl
@[simp] theorem leavePublishing_flags : (leavePublishing k s).flags = s.flags := by cases s; rfl
@[simp] theorem leavePublishing_enables : (leavePublishing k s).enables = s.enables := by cases s; rfl
@[simp] theorem leavePublishing_rqData : (leavePublishing k s).rqData = s.rqData := by cases s; rfl
@[simp] theorem leavePublishing_pending : (leavePublishing k s).pending = s.pending := by cases s; rfl

end

section

variable (k : ClientId) (s : State)

@[simp] theorem retireStep_resetLow : (retireStep k s).resetLow = s.resetLow := by cases s; rfl
@[simp] theorem retireStep_parked : (retireStep k s).parked = s.parked := by cases s; rfl
@[simp] theorem retireStep_panel : (retireStep k s).panel = s.panel := by cases s; rfl
@[simp] theorem retireStep_engine : (retireStep k s).engine = s.engine := by cases s; rfl
@[simp] theorem retireStep_committedWork : (retireStep k s).committedWork = s.committedWork := by cases s; rfl
@[simp] theorem retireStep_copyEndDue : (retireStep k s).copyEndDue = s.copyEndDue := by cases s; rfl
@[simp] theorem retireStep_counters : (retireStep k s).counters = s.counters := by cases s; rfl
@[simp] theorem retireStep_lapsePending : (retireStep k s).lapsePending = s.lapsePending := by cases s; rfl
@[simp] theorem retireStep_leaseInbox : (retireStep k s).leaseInbox = s.leaseInbox := by cases s; rfl
@[simp] theorem retireStep_frameCounter : (retireStep k s).frameCounter = s.frameCounter := by cases s; rfl
@[simp] theorem retireStep_lineCounter : (retireStep k s).lineCounter = s.lineCounter := by cases s; rfl
@[simp] theorem retireStep_snapState : (retireStep k s).snapState = s.snapState := by cases s; rfl
@[simp] theorem retireStep_snapFrame : (retireStep k s).snapFrame = s.snapFrame := by cases s; rfl
@[simp] theorem retireStep_listA : (retireStep k s).listA = s.listA := by cases s; rfl
@[simp] theorem retireStep_listB : (retireStep k s).listB = s.listB := by cases s; rfl
@[simp] theorem retireStep_showing : (retireStep k s).showing = s.showing := by cases s; rfl
@[simp] theorem retireStep_builder : (retireStep k s).builder = s.builder := by cases s; rfl
@[simp] theorem retireStep_spanQueue : (retireStep k s).spanQueue = s.spanQueue := by cases s; rfl
@[simp] theorem retireStep_spanPort : (retireStep k s).spanPort = s.spanPort := by cases s; rfl
@[simp] theorem retireStep_pointBytes : (retireStep k s).pointBytes = s.pointBytes := by cases s; rfl
@[simp] theorem retireStep_points : (retireStep k s).points = s.points := by cases s; rfl
@[simp] theorem retireStep_lookup : (retireStep k s).lookup = s.lookup := by cases s; rfl
@[simp] theorem retireStep_lookupAnswers : (retireStep k s).lookupAnswers = s.lookupAnswers := by cases s; rfl
@[simp] theorem retireStep_lookupRead : (retireStep k s).lookupRead = s.lookupRead := by cases s; rfl
@[simp] theorem retireStep_lkSel : (retireStep k s).lkSel = s.lkSel := by cases s; rfl
@[simp] theorem retireStep_lkByte : (retireStep k s).lkByte = s.lkByte := by cases s; rfl
@[simp] theorem retireStep_assembly : (retireStep k s).assembly = s.assembly := by cases s; rfl
@[simp] theorem retireStep_requests : (retireStep k s).requests = s.requests := by cases s; rfl
@[simp] theorem retireStep_answers : (retireStep k s).answers = s.answers := by cases s; rfl
@[simp] theorem retireStep_answerRead : (retireStep k s).answerRead = s.answerRead := by cases s; rfl
@[simp] theorem retireStep_statusHeld : (retireStep k s).statusHeld = s.statusHeld := by cases s; rfl
@[simp] theorem retireStep_lastReadEmpty : (retireStep k s).lastReadEmpty = s.lastReadEmpty := by cases s; rfl
@[simp] theorem retireStep_flags : (retireStep k s).flags = s.flags := by cases s; rfl
@[simp] theorem retireStep_enables : (retireStep k s).enables = s.enables := by cases s; rfl
@[simp] theorem retireStep_rqData : (retireStep k s).rqData = s.rqData := by cases s; rfl
@[simp] theorem retireStep_pending : (retireStep k s).pending = s.pending := by cases s; rfl

end

section

variable (k : ClientId) (s : State)

@[simp] theorem applyClose_resetLow : (applyClose k s).resetLow = s.resetLow := by cases s; rfl
@[simp] theorem applyClose_parked : (applyClose k s).parked = s.parked := by cases s; rfl
@[simp] theorem applyClose_panel : (applyClose k s).panel = s.panel := by cases s; rfl
@[simp] theorem applyClose_engine : (applyClose k s).engine = s.engine := by cases s; rfl
@[simp] theorem applyClose_committedWork : (applyClose k s).committedWork = s.committedWork := by cases s; rfl
@[simp] theorem applyClose_copyEndDue : (applyClose k s).copyEndDue = s.copyEndDue := by cases s; rfl
@[simp] theorem applyClose_counters : (applyClose k s).counters = s.counters := by cases s; rfl
@[simp] theorem applyClose_lapsePending : (applyClose k s).lapsePending = s.lapsePending := by cases s; rfl
@[simp] theorem applyClose_leaseInbox : (applyClose k s).leaseInbox = s.leaseInbox := by cases s; rfl
@[simp] theorem applyClose_frameCounter : (applyClose k s).frameCounter = s.frameCounter := by cases s; rfl
@[simp] theorem applyClose_lineCounter : (applyClose k s).lineCounter = s.lineCounter := by cases s; rfl
@[simp] theorem applyClose_snapState : (applyClose k s).snapState = s.snapState := by cases s; rfl
@[simp] theorem applyClose_snapFrame : (applyClose k s).snapFrame = s.snapFrame := by cases s; rfl
@[simp] theorem applyClose_listA : (applyClose k s).listA = s.listA := by cases s; rfl
@[simp] theorem applyClose_listB : (applyClose k s).listB = s.listB := by cases s; rfl
@[simp] theorem applyClose_showing : (applyClose k s).showing = s.showing := by cases s; rfl
@[simp] theorem applyClose_builder : (applyClose k s).builder = s.builder := by cases s; rfl
@[simp] theorem applyClose_spanQueue : (applyClose k s).spanQueue = s.spanQueue := by cases s; rfl
@[simp] theorem applyClose_spanPort : (applyClose k s).spanPort = s.spanPort := by cases s; rfl
@[simp] theorem applyClose_pointBytes : (applyClose k s).pointBytes = s.pointBytes := by cases s; rfl
@[simp] theorem applyClose_points : (applyClose k s).points = s.points := by cases s; rfl
@[simp] theorem applyClose_lookup : (applyClose k s).lookup = s.lookup := by cases s; rfl
@[simp] theorem applyClose_lookupAnswers : (applyClose k s).lookupAnswers = s.lookupAnswers := by cases s; rfl
@[simp] theorem applyClose_lookupRead : (applyClose k s).lookupRead = s.lookupRead := by cases s; rfl
@[simp] theorem applyClose_lkSel : (applyClose k s).lkSel = s.lkSel := by cases s; rfl
@[simp] theorem applyClose_lkByte : (applyClose k s).lkByte = s.lkByte := by cases s; rfl
@[simp] theorem applyClose_assembly : (applyClose k s).assembly = s.assembly := by cases s; rfl
@[simp] theorem applyClose_requests : (applyClose k s).requests = s.requests := by cases s; rfl
@[simp] theorem applyClose_answers : (applyClose k s).answers = s.answers := by cases s; rfl
@[simp] theorem applyClose_answerRead : (applyClose k s).answerRead = s.answerRead := by cases s; rfl
@[simp] theorem applyClose_statusHeld : (applyClose k s).statusHeld = s.statusHeld := by cases s; rfl
@[simp] theorem applyClose_lastReadEmpty : (applyClose k s).lastReadEmpty = s.lastReadEmpty := by cases s; rfl
@[simp] theorem applyClose_flags : (applyClose k s).flags = s.flags := by cases s; rfl
@[simp] theorem applyClose_enables : (applyClose k s).enables = s.enables := by cases s; rfl
@[simp] theorem applyClose_rqData : (applyClose k s).rqData = s.rqData := by cases s; rfl
@[simp] theorem applyClose_pending : (applyClose k s).pending = s.pending := by cases s; rfl

end

section

variable (s : State)

@[simp] theorem applyClear_resetLow : (applyClear s).resetLow = s.resetLow := by cases s; rfl
@[simp] theorem applyClear_parked : (applyClear s).parked = s.parked := by cases s; rfl
@[simp] theorem applyClear_panel : (applyClear s).panel = s.panel := by cases s; rfl
@[simp] theorem applyClear_engine : (applyClear s).engine = s.engine := by cases s; rfl
@[simp] theorem applyClear_committedWork : (applyClear s).committedWork = s.committedWork := by cases s; rfl
@[simp] theorem applyClear_copyEndDue : (applyClear s).copyEndDue = s.copyEndDue := by cases s; rfl
@[simp] theorem applyClear_frameCounter : (applyClear s).frameCounter = s.frameCounter := by cases s; rfl
@[simp] theorem applyClear_lineCounter : (applyClear s).lineCounter = s.lineCounter := by cases s; rfl
@[simp] theorem applyClear_snapState : (applyClear s).snapState = s.snapState := by cases s; rfl
@[simp] theorem applyClear_snapFrame : (applyClear s).snapFrame = s.snapFrame := by cases s; rfl
@[simp] theorem applyClear_listA : (applyClear s).listA = s.listA := by cases s; rfl
@[simp] theorem applyClear_listB : (applyClear s).listB = s.listB := by cases s; rfl
@[simp] theorem applyClear_showing : (applyClear s).showing = s.showing := by cases s; rfl
@[simp] theorem applyClear_builder : (applyClear s).builder = s.builder := by cases s; rfl
@[simp] theorem applyClear_spanQueue : (applyClear s).spanQueue = s.spanQueue := by cases s; rfl
@[simp] theorem applyClear_spanPort : (applyClear s).spanPort = s.spanPort := by cases s; rfl
@[simp] theorem applyClear_pointBytes : (applyClear s).pointBytes = s.pointBytes := by cases s; rfl
@[simp] theorem applyClear_points : (applyClear s).points = s.points := by cases s; rfl
@[simp] theorem applyClear_lookup : (applyClear s).lookup = s.lookup := by cases s; rfl
@[simp] theorem applyClear_lookupAnswers : (applyClear s).lookupAnswers = s.lookupAnswers := by cases s; rfl
@[simp] theorem applyClear_lookupRead : (applyClear s).lookupRead = s.lookupRead := by cases s; rfl
@[simp] theorem applyClear_lkSel : (applyClear s).lkSel = s.lkSel := by cases s; rfl
@[simp] theorem applyClear_lkByte : (applyClear s).lkByte = s.lkByte := by cases s; rfl
@[simp] theorem applyClear_assembly : (applyClear s).assembly = s.assembly := by cases s; rfl
@[simp] theorem applyClear_requests : (applyClear s).requests = s.requests := by cases s; rfl
@[simp] theorem applyClear_answers : (applyClear s).answers = s.answers := by cases s; rfl
@[simp] theorem applyClear_answerRead : (applyClear s).answerRead = s.answerRead := by cases s; rfl
@[simp] theorem applyClear_statusHeld : (applyClear s).statusHeld = s.statusHeld := by cases s; rfl
@[simp] theorem applyClear_lastReadEmpty : (applyClear s).lastReadEmpty = s.lastReadEmpty := by cases s; rfl
@[simp] theorem applyClear_flags : (applyClear s).flags = s.flags := by cases s; rfl
@[simp] theorem applyClear_enables : (applyClear s).enables = s.enables := by cases s; rfl
@[simp] theorem applyClear_rqData : (applyClear s).rqData = s.rqData := by cases s; rfl
@[simp] theorem applyClear_pending : (applyClear s).pending = s.pending := by cases s; rfl

end

end Sys2Proof.Machine
end

