-- ==== Sys2Proof/Laws/Tables.lean ====
section
/-! SUPPORT. Reading a table after an update of it: one lemma per reader and update. -/

namespace Sys2Proof.Machine

/-! ### Region records -/

@[simp] theorem region_mapRegions (f : RegionId → Region → Region) (s : State) (i : RegionId) :
    (s.mapRegions f).region i = f i (s.region i) := by
  simp [State.region, State.mapRegions]

theorem region_setRegion (i j : RegionId) (r : Region) (s : State) :
    (s.setRegion i r).region j = if j = i then r else s.region j := by
  simp [State.setRegion]

@[simp] theorem region_setRegion_same (i : RegionId) (r : Region) (s : State) : (s.setRegion i r).region i = r := by
  simp [region_setRegion]

theorem region_setRegion_other {i j : RegionId} (h : j ≠ i) (r : Region) (s : State) :
    (s.setRegion i r).region j = s.region j := by
  simp [region_setRegion, h]

@[simp] theorem region_mapClients (f : ClientId → Client → Client) (s : State) (i : RegionId) :
    (s.mapClients f).region i = s.region i := by
  simp [State.region]

@[simp] theorem region_updClient (k : ClientId) (f : Client → Client) (s : State) (i : RegionId) :
    (s.updClient k f).region i = s.region i := by
  simp [State.region]

theorem region_freeRecords (ids : List RegionId) (s : State) (i : RegionId) :
    (freeRecords ids s).region i = if i ∈ ids then .free else closeUpOrder s ids (s.region i) := by
  simp [State.region, freeRecords]

theorem region_discardStaging (k : ClientId) (s : State) (i : RegionId) :
    (discardStaging k s).region i =
      if isReservedOf k (s.region i) then .free
      else dropStaged k (closeUpOrder s (s.idsWhere (isReservedOf k)) (s.region i)) := by
  simp only [discardStaging, region_updClient, region_mapRegions, region_freeRecords]
  by_cases h : isReservedOf k (s.region i) = true
  · simp [State.idsWhere, h, dropStaged]
  · simp [State.idsWhere, h]

@[simp] theorem region_editStep (k : ClientId) (s : State) (i : RegionId) :
    (editStep k s).region i = commitStaged k (s.region i) := by
  simp [editStep]

@[simp] theorem region_stampStep (ids : List RegionId) (eff : Frame) (s : State) (i : RegionId) :
    (stampStep ids eff s).region i = if i ∈ ids then stampRegion eff (s.region i) else s.region i := by
  simp [stampStep]

@[simp] theorem mem_idsWhere (p : Region → Bool) (s : State) (i : RegionId) : i ∈ s.idsWhere p ↔ p (s.region i) = true := by
  simp [State.idsWhere]

theorem nodup_idsWhere (p : Region → Bool) (s : State) : (s.idsWhere p).Nodup :=
  (List.nodup_finRange 64).filter _

/-! ### Client records -/

@[simp] theorem client_mapClients (f : ClientId → Client → Client) (s : State) (k : ClientId) :
    (s.mapClients f).client k = f k (s.client k) := by
  simp [State.client, State.mapClients]

theorem client_updClient (k j : ClientId) (f : Client → Client) (s : State) :
    (s.updClient k f).client j = if j = k then f (s.client j) else s.client j := by
  simp [State.updClient]

@[simp] theorem client_updClient_same (k : ClientId) (f : Client → Client) (s : State) :
    (s.updClient k f).client k = f (s.client k) := by
  simp [client_updClient]

theorem client_updClient_other {k j : ClientId} (h : j ≠ k) (f : Client → Client) (s : State) :
    (s.updClient k f).client j = s.client j := by
  simp [client_updClient, h]

@[simp] theorem client_mapRegions (f : RegionId → Region → Region) (s : State) (k : ClientId) :
    (s.mapRegions f).client k = s.client k := by
  simp [State.client]

@[simp] theorem client_setRegion (i : RegionId) (r : Region) (s : State) (k : ClientId) :
    (s.setRegion i r).client k = s.client k := by
  simp [State.client]

theorem client_freeRecords (ids : List RegionId) (s : State) (k : ClientId) :
    (freeRecords ids s).client k =
      { s.client k with
        owned := (s.client k).owned - (ids.filter fun i => decide (regionOwner (s.region i) = some k)).length
        moves := (s.client k).moves.map (markDead ids) } := by
  simp [State.client, freeRecords]

theorem client_discardStaging (k j : ClientId) (s : State) :
    (discardStaging k s).client j =
      if j = k then { (freeRecords (s.idsWhere (isReservedOf k)) s).client j with moves := [] }
      else (freeRecords (s.idsWhere (isReservedOf k)) s).client j := by
  simp [discardStaging, client_updClient]

/-! ### Lease counters -/

@[simp] theorem counter_mapCounters (f : ClientId → LeaseCounter → LeaseCounter) (s : State) (k : ClientId) :
    (s.mapCounters f).counter k = f k (s.counter k) := by
  simp [State.counter, State.mapCounters]

theorem counter_setCounter (k j : ClientId) (c : LeaseCounter) (s : State) :
    (s.setCounter k c).counter j = if j = k then c else s.counter j := by
  simp [State.setCounter]

theorem counters_ext {s t : State} (h : ∀ k, t.counter k = s.counter k) : t.counters = s.counters :=
  Vector.ext fun i hi => h ⟨i, hi⟩

theorem counter_takeClaim (k j : ClientId) (s : State) :
    (takeClaim k s).counter j =
      if j = k ∧ (s.counter k).running = true then { count := leasePeriod s k, running := true } else s.counter j := by
  unfold takeClaim
  by_cases h : (s.counter k).running = true <;> simp [h, counter_setCounter]

@[simp] theorem takeClaim_lapsePending (k : ClientId) (s : State) : (takeClaim k s).lapsePending = s.lapsePending := by
  unfold takeClaim; split <;> simp

theorem counter_takeLoad (k j : ClientId) (p : Nat) (s : State) :
    (takeLoad k p s).counter j = if j = k then { count := p, running := decide (p ≠ 0) } else s.counter j := by
  simp [takeLoad, counter_setCounter]

@[simp] theorem takeLoad_lapsePending (k : ClientId) (p : Nat) (s : State) :
    (takeLoad k p s).lapsePending = s.lapsePending := by
  simp [takeLoad]

theorem counter_takeStop (k j : ClientId) (s : State) :
    (takeStop k s).counter j = if j = k then { count := 0, running := false } else s.counter j :=
  counter_setCounter k j _ s

theorem takeStop_lapsePending (k : ClientId) (s : State) :
    (takeStop k s).lapsePending = s.lapsePending.filter fun j => decide (j ≠ k) := rfl

theorem counter_expireCounters (s : State) (k : ClientId) :
    (expireCounters s).counter k = if counterSpent s k then { count := 0, running := false } else s.counter k := by
  simp [State.counter, expireCounters]

theorem mem_clientsWhere (p : ClientId → Bool) (k : ClientId) : k ∈ clientsWhere p ↔ p k = true := by
  simp [clientsWhere]

theorem mem_lapsePending_expireCounters (s : State) (k : ClientId) :
    k ∈ (expireCounters s).lapsePending ↔ k ∈ s.lapsePending ∨ counterSpent s k = true := by
  simp [expireCounters, mem_clientsWhere]

/-! ### Scan lists -/

@[simp] theorem scanList_updScanList_same (n : ListName) (f : ScanList → ScanList) (s : State) :
    (s.updScanList n f).scanList n = f (s.scanList n) := by
  cases n <;> rfl

@[simp] theorem scanList_updScanList_other (n : ListName) (f : ScanList → ScanList) (s : State) :
    (s.updScanList (otherList n) f).scanList n = s.scanList n := by
  cases n <;> rfl

@[simp] theorem otherList_ne (n : ListName) : otherList n ≠ n := by
  cases n <;> decide

@[simp] theorem otherList_otherList (n : ListName) : otherList (otherList n) = n := by
  cases n <;> rfl

/-- An update of a scan list changes nothing but the two lists. -/
theorem updScanList_frame (n : ListName) (f : ScanList → ScanList) (s : State) :
    s.updScanList n f = { s with listA := (s.updScanList n f).listA, listB := (s.updScanList n f).listB } := by
  cases n <;> cases s <;> rfl

end Sys2Proof.Machine
end

