-- ==== Sys2Proof/Laws/Copies.lean ====
section
/-! SUPPORT. What a copy finds at its start (R118, R119). -/

namespace Sys2Proof.Machine

/-- A copy starts with the Parked List empty: a close, like every parked entry, is applied before the next copy (R86, R118). -/
theorem copyMayStart_parked {s : State} (e : EngineAtRest s) (h : copyMayStart s = true) : s.parked = [] := by
  simp only [copyMayStart, Bool.and_eq_true, decide_eq_true_eq, Bool.not_eq_true'] at h
  obtain ⟨⟨⟨w, d⟩, -⟩, -⟩ := h
  by_contra p
  have q := e.parkedWhen p
  simp [isCopying, w, d] at q

/-- No copy starts while a client is CLOSING: the latch of a copy finds none (R31, R35, R118, R119). -/
theorem copyMayStart_noneClosing {s : State} (e : EngineAtRest s) (r : StagingHolds s) (h : copyMayStart s = true)
    (k : ClientId) : (s.client k).state ≠ .closing := by
  intro c
  have m := r.closing k c
  simp [copyMayStart_parked e h] at m

/-- At a copy start the visible-client set of R119 is that of a reading that leaves out CLOSING clients too, as the text
under R40 has it (log 24): the two texts differ for a client that becomes CLOSING during the copy alone (R121). -/
theorem visibleClients_noneClosing {s : State} (e : EngineAtRest s) (r : StagingHolds s) (h : copyMayStart s = true) :
    visibleClients s = clientsWhere fun k => decide ((s.client k).state ≠ .lapsed ∧ (s.client k).state ≠ .closing) := by
  unfold visibleClients
  congr 1
  funext k
  simp [copyMayStart_noneClosing e r h k]

end Sys2Proof.Machine
end

