-- ==== Sys2Proof/Laws/Engine.lean ====
section
/-! SUPPORT. What the shared operations of the engine and the Lease Monitor can do, said once for each. -/

namespace Sys2Proof.Machine

/-! ### RESET -/

@[simp] theorem whileHigh_high {f : State → State} {s : State} (h : s.resetLow = false) : whileHigh f s = .next (f s) := by
  simp [whileHigh, h]

/-- While RESET is low an event changes nothing (R106, R147, R163, R178). -/
@[simp] theorem whileHigh_low {f : State → State} {s : State} (h : s.resetLow = true) : whileHigh f s = .next s := by
  simp [whileHigh, h]

/-- What an event of the part can do: nothing while RESET is low, its effect otherwise. -/
theorem whileHigh_cases {f : State → State} {s t : State} (h : whileHigh f s = .next t) :
    (s.resetLow = true ∧ t = s) ∨ (s.resetLow = false ∧ t = f s) := by
  cases r : s.resetLow with
  | false => exact .inr ⟨rfl, by simpa [r] using h.symm⟩
  | true => exact .inl ⟨rfl, by simpa [r] using h.symm⟩

/-! ### The Lease Monitor -/

/-- What the Lease Monitor may change: counters, the Lapse Pending Set, the messages handed over, and LEASE_LAPSE. -/
def leaseFrame (s t : State) : Prop :=
  t = { s with
    counters := t.counters, lapsePending := t.lapsePending, leaseInbox := t.leaseInbox
    flags := { s.flags with leaseLapse := t.flags.leaseLapse } }

theorem leaseFrame_refl (s : State) : leaseFrame s s := by
  cases s; rfl

theorem leaseFrame_trans {s t u : State} (h : leaseFrame s t) (g : leaseFrame t u) : leaseFrame s u := by
  unfold leaseFrame at *
  rw [h] at g
  exact g

theorem expireCounters_frame (s : State) : leaseFrame s (expireCounters s) := by
  cases s; rfl

theorem countDown_frame (s : State) : leaseFrame s (countDown s) := by
  cases s; rfl

theorem setCounter_frame (k : ClientId) (c : LeaseCounter) (s : State) : leaseFrame s (s.setCounter k c) := by
  cases s; rfl

theorem takeLeaseMsg_frame (s : State) (m : LeaseMsg) : leaseFrame s (takeLeaseMsg s m) := by
  cases m with
  | claim k =>
    show leaseFrame s (takeClaim k s)
    unfold takeClaim
    split
    · exact setCounter_frame _ _ _
    · exact leaseFrame_refl _
  | load k p => exact setCounter_frame _ _ _
  | stop k => cases s; rfl

/-- Settling changes the Lease Monitor alone. -/
theorem settleLease_frame (s : State) : leaseFrame s (settleLease s) := by
  cases s; rfl

@[simp] theorem settleLease_leaseInbox (s : State) : (settleLease s).leaseInbox = [] := rfl

/-- With nothing handed over, settling changes nothing. -/
theorem settleLease_nil {s : State} (h : s.leaseInbox = []) : settleLease s = s := by
  have e : settleLease s = { s with leaseInbox := [] } := by unfold settleLease; rw [h]; rfl
  exact e.trans (congrArg (fun l => { s with leaseInbox := l }) h.symm)

/-- The Lease Monitor's messages set no event flag: only a counter that reaches 0 sets LEASE_LAPSE (R94). -/
theorem takeLeaseMsg_flags (s : State) (m : LeaseMsg) : (takeLeaseMsg s m).flags = s.flags := by
  cases m with
  | claim k => simp only [takeLeaseMsg, takeClaim]; split <;> simp
  | load k p => simp [takeLeaseMsg, takeLoad]
  | stop k => simp [takeLeaseMsg, takeStop]

@[simp] theorem settleLease_region (s : State) (i : RegionId) : (settleLease s).region i = s.region i := by
  simp [State.region]

@[simp] theorem settleLease_client (s : State) (k : ClientId) : (settleLease s).client k = s.client k := by
  simp [State.client]

@[simp] theorem askLease_region (ms : List LeaseMsg) (s : State) (i : RegionId) : (askLease ms s).region i = s.region i := by
  simp [State.region]

@[simp] theorem askLease_client (ms : List LeaseMsg) (s : State) (k : ClientId) : (askLease ms s).client k = s.client k := by
  simp [State.client]

/-- What the Lease Monitor's messages read and write: the counters, the Lapse Pending Set and the client records. -/
def sameLeases (s t : State) : Prop :=
  t.counters = s.counters ∧ t.lapsePending = s.lapsePending ∧ t.clients = s.clients

theorem takeLeaseMsg_clients (s : State) (m : LeaseMsg) : (takeLeaseMsg s m).clients = s.clients := by
  rw [takeLeaseMsg_frame s m]

theorem foldl_takeLeaseMsg_clients (ms : List LeaseMsg) (s : State) : (ms.foldl takeLeaseMsg s).clients = s.clients := by
  induction ms generalizing s with
  | nil => rfl
  | cons m ms ih => rw [List.foldl_cons, ih, takeLeaseMsg_clients]

theorem takeLeaseMsg_same {s t : State} (h : sameLeases s t) (m : LeaseMsg) :
    sameLeases (takeLeaseMsg s m) (takeLeaseMsg t m) := by
  obtain ⟨hc, hl, hk⟩ := h
  have c : ∀ j, t.counter j = s.counter j := fun j => by simp [State.counter, hc]
  have p : ∀ j, leasePeriod t j = leasePeriod s j := fun j => by simp [leasePeriod, State.client, hk]
  refine ⟨counters_ext fun j => ?_, ?_, by rw [takeLeaseMsg_clients, takeLeaseMsg_clients, hk]⟩
  · cases m <;> simp [takeLeaseMsg, counter_takeClaim, counter_takeLoad, counter_takeStop, c, p]
  · cases m <;> simp [takeLeaseMsg, takeStop_lapsePending, hl]

theorem foldl_takeLeaseMsg_same (ms : List LeaseMsg) {s t : State} (h : sameLeases s t) :
    sameLeases (ms.foldl takeLeaseMsg s) (ms.foldl takeLeaseMsg t) := by
  induction ms generalizing s t with
  | nil => exact h
  | cons m ms ih => exact ih (takeLeaseMsg_same h m)

/-- What a load or a stop does to the Lease Monitor: the messages are taken after everything handed over before, and then
nothing waits (R93, R96; log 5). -/
theorem askLease_spec (ms : List LeaseMsg) (s : State) :
    (askLease ms s).leaseInbox = [] ∧ sameLeases (ms.foldl takeLeaseMsg (settleLease s)) (askLease ms s) := by
  have a : sameLeases (settleLease s) (s.leaseInbox.foldl takeLeaseMsg { s with leaseInbox := s.leaseInbox ++ ms }) := by
    have h := foldl_takeLeaseMsg_same s.leaseInbox (s := s) (t := { s with leaseInbox := s.leaseInbox ++ ms }) ⟨rfl, rfl, rfl⟩
    exact ⟨h.1, h.2.1, by rw [foldl_takeLeaseMsg_clients, settleLease_clients]⟩
  have b := foldl_takeLeaseMsg_same ms a
  refine ⟨rfl, ?_⟩
  unfold askLease settleLease
  rw [List.foldl_append]
  exact ⟨b.1, b.2.1, by rw [foldl_takeLeaseMsg_clients]⟩

/-! ### Placing answers -/

theorem placeAnswer_room {s : State} (h : s.answers.length < 16) (a : Answer) (r : Resume) :
    placeAnswer a r s = answerPlaced r { s with answers := s.answers ++ [a] } := by
  simp [placeAnswer, answerRoom, h, pushAnswer]

theorem placeAnswer_full {s : State} (h : ¬ s.answers.length < 16) (a : Answer) (r : Resume) :
    placeAnswer a r s = { s with engine := .stalled a r } := by
  simp [placeAnswer, answerRoom, h]

/-- An answer is placed, and its piece is finished or goes on; or it is held. -/
theorem placeAnswer_cases (a : Answer) (r : Resume) (s : State) :
    (s.answers.length < 16 ∧ placeAnswer a r s = answerPlaced r { s with answers := s.answers ++ [a] })
      ∨ (16 ≤ s.answers.length ∧ placeAnswer a r s = { s with engine := .stalled a r }) := by
  by_cases h : s.answers.length < 16
  · exact .inl ⟨h, placeAnswer_room h a r⟩
  · exact .inr ⟨by omega, placeAnswer_full h a r⟩

/-- The last answer of a piece is placed or held. -/
theorem placeLast_cases (a : Answer) (s : State) :
    (s.answers.length < 16 ∧ placeLast a s = { s with answers := s.answers ++ [a], engine := .free })
      ∨ (16 ≤ s.answers.length ∧ placeLast a s = { s with engine := .stalled a .finish }) :=
  placeAnswer_cases a .finish s

/-- A property of states that does not look at the Answer Queue, the engine or the copy-end indication is kept when an answer
is placed or held. -/
theorem placeAnswer_keeps (P : State → Prop) (answers : ∀ s l, P s → P { s with answers := l })
    (engine : ∀ s e, P s → P { s with engine := e }) (due : ∀ s b, P s → P { s with copyEndDue := b })
    (a : Answer) (r : Resume) (s : State) (h : P s) : P (placeAnswer a r s) := by
  obtain ⟨-, e⟩ | ⟨-, e⟩ := placeAnswer_cases a r s <;> rw [e]
  · have q := answers s (s.answers ++ [a]) h
    cases r with
    | finish => exact engine _ _ q
    | closeTail k tag parks => exact engine _ _ q
    | application =>
      simp only [answerPlaced]
      split
      · exact engine { s with answers := s.answers ++ [a], copyEndDue := false } .free (due _ false q)
      · exact engine _ _ q
  · exact engine _ _ h

/-- The placement of a held answer: nothing without one. -/
theorem placeHeld_cases (s : State) :
    (∃ a r, s.engine = .stalled a r ∧ placeHeld s = placeAnswer a r s) ∨ ((∀ a r, s.engine ≠ .stalled a r) ∧ placeHeld s = s) := by
  cases h : s.engine with
  | free => exact .inr ⟨by simp, by simp [placeHeld, h]⟩
  | working r => exact .inr ⟨by simp, by simp [placeHeld, h]⟩
  | stalled a r => exact .inl ⟨a, r, rfl, by simp [placeHeld, h]⟩

/-- What going on with the rest of a piece can do: nothing, unless the engine is WORKING. -/
theorem goOn_cases (s : State) :
    (s.engine = .working .finish ∧ goOn s = finishPiece s)
      ∨ (∃ k tag parks, s.engine = .working (.closeTail k tag parks) ∧ goOn s = closeTail k tag parks s)
      ∨ (s.engine = .working .application ∧ goOn s = applyNext s)
      ∨ ((∀ r, s.engine ≠ .working r) ∧ goOn s = s) := by
  unfold goOn
  cases e : s.engine with
  | working r =>
    cases r with
    | finish => exact .inl ⟨rfl, rfl⟩
    | closeTail k tag parks => exact .inr (.inl ⟨k, tag, parks, rfl, rfl⟩)
    | application => exact .inr (.inr (.inl ⟨rfl, rfl⟩))
  | free => simp
  | stalled a r => simp

/-! ### Taking requests -/

/-- A request is taken exactly when the engine is FREE, no application is due, no lapse notice waits, and the oldest
message is of the kind. -/
theorem takeRequest_eq_some {kind : Option RequestKind} {s t : State} {m : List Word} :
    takeRequest kind s = some (m, t) ↔
      s.engine = .free ∧ s.copyEndDue = false ∧ (settleLease s).lapsePending = [] ∧
        ∃ rest, s.requests = m :: rest ∧ messageKind m = kind
          ∧ t = { settleLease s with requests := rest, engine := .working .finish } := by
  unfold takeRequest engineOpen
  simp only [settleLease_requests]
  by_cases h : s.engine = .free
  · by_cases d : s.copyEndDue = true
    · simp [h, d]
    · simp only [h, d, decide_true, Bool.not_false, Bool.and_self, if_true]
      cases hl : (settleLease s).lapsePending with
      | cons k l => simp
      | nil =>
        cases hq : s.requests with
        | nil => simp
        | cons m' rest =>
          by_cases hk : messageKind m' = kind
          · simp only [hk, if_true, Option.some.injEq, Prod.mk.injEq]
            constructor
            · rintro ⟨rfl, rfl⟩
              exact ⟨trivial, by simp, trivial, rest, rfl, hk, rfl⟩
            · rintro ⟨-, -, -, rest', hr, -, rfl⟩
              cases hr
              exact ⟨rfl, rfl⟩
          · simp only [hk, if_false]
            constructor
            · intro e; cases e
            · rintro ⟨-, -, -, rest', hr, hk', -⟩
              cases hr
              exact absurd hk' hk
  · simp [h]

/-- A FRAME_START within a piece changes the Lease Monitor alone. -/
theorem framedBy_frame (race : LeaseRace) (s : State) : leaseFrame s (framedBy race s) := by
  cases race
  · exact leaseFrame_refl s
  · exact countDown_frame s

/-- A FRAME_START within a piece does not look at what waits for the Lease Monitor. -/
theorem framedBy_handLease (race : LeaseRace) (m : LeaseMsg) (s : State) :
    framedBy race (handLease m s) = handLease m (framedBy race s) := by
  cases race <;> cases s <;> rfl

/-- What a request command can do: nothing, or the refusal of check 2 or 3, or, after the reload claim, the refusal of
check 4 or 5 or the kind's own work (R78, R79, R80), with a FRAME_START of the piece taken after the request (log 7). -/
theorem runRacing_cases (race : LeaseRace) (kind : RequestKind) (own : List Word → Header → State → State) (s : State) :
    runRacing race kind own s = s
      ∨ ∃ m t, takeRequest (some kind) s = some (m, t) ∧
        let h := messageHeader m
        let v := framedBy race t
        let u := handLease (.claim h.client) v
        (∃ c, clientRefusal kind h v = some c ∧ runRacing race kind own s = answerRequest kind h (refusal c) v)
          ∨ (clientRefusal kind h v = none ∧
              ((∃ c, laterRefusal kind h u = some c ∧ runRacing race kind own s = answerRequest kind h (refusal c) u)
                ∨ (laterRefusal kind h u = none ∧ runRacing race kind own s = own m h u))) := by
  unfold runRacing
  cases h : takeRequest (some kind) s with
  | none => exact .inl rfl
  | some p =>
    refine .inr ⟨p.1, p.2, rfl, ?_⟩
    cases hc : clientRefusal kind (messageHeader p.1) (framedBy race p.2) with
    | some c => exact .inl ⟨c, hc, by simp [hc]⟩
    | none =>
      refine .inr ⟨hc, ?_⟩
      cases hl : laterRefusal kind (messageHeader p.1)
          (handLease (.claim (messageHeader p.1).client) (framedBy race p.2)) with
      | some c => exact .inl ⟨c, rfl, by simp [hc, hl]⟩
      | none => exact .inr ⟨rfl, by simp [hc, hl]⟩

/-! ### Committed work -/

/-- A committed change applied at once: its entry is applied with the indication raised, which is lowered before the
answer is placed or held (R83). -/
theorem applyNow_eq (e : ParkedEntry) (s : State) :
    applyNow e s = placeLast (applyEntry e { s with committedWork := true }).2
      { (applyEntry e { s with committedWork := true }).1 with committedWork := false } := rfl

/-- The next entry of a copy-end application: the application is finished, or the first entry leaves the list, is applied and
is answered (R87). -/
theorem applyNext_cases (s : State) :
    (s.parked = [] ∧ applyNext s = finishApplication s)
      ∨ ∃ e rest, s.parked = e :: rest ∧ applyNext s =
          placeAnswer (applyEntry e { s with parked := rest }).2 .application (applyEntry e { s with parked := rest }).1 := by
  cases h : s.parked with
  | nil => exact .inl ⟨rfl, by simp [applyNext, h]⟩
  | cons e rest => exact .inr ⟨e, rest, rfl, by simp [applyNext, h]⟩

/-- A property of states that every application of an entry keeps, and that does not look at the Answer Queue, the engine,
the Parked List or the copy-end indication, is kept by the next entry of the copy-end application (R87). -/
theorem applyNext_keeps (P : State → Prop)
    (apply : ∀ e s, P s → P (applyEntry e s).1)
    (answers : ∀ s l, P s → P { s with answers := l }) (parked : ∀ s l, P s → P { s with parked := l })
    (engine : ∀ s e, P s → P { s with engine := e }) (due : ∀ s b, P s → P { s with copyEndDue := b })
    (s : State) (h : P s) : P (applyNext s) := by
  obtain ⟨-, e⟩ | ⟨e, rest, -, eq⟩ := applyNext_cases s
  · rw [e]
    exact engine { s with copyEndDue := false } .free (due s false h)
  · rw [eq]
    exact placeAnswer_keeps P answers engine due _ _ _ (apply e _ (parked s rest h))

end Sys2Proof.Machine
end

