-- ==== Sys2Proof/Laws/PerInstr.lean ====
section
/-! SUPPORT. One lemma per command: a command that is not well formed is a transaction of the host's. -/

namespace Sys2Proof.Laws.Sender

/-- A command either is well formed, whatever its operand, or is sent by the host (only an ASSEMBLY_ABANDON can be ill
formed). -/
def Statement (c : Instr) : Prop :=
  c.wellFormed = true ∨ c.agent = .host

theorem deviceReset (level : PinLevel) : Statement (.deviceReset level) := Or.inl rfl
theorem requestWordWrite (w : Word) : Statement (.requestWordWrite w) := Or.inl rfl
theorem answerRead : Statement .answerRead := Or.inl rfl
theorem answerWindowWrite (access : QuietAccess) : Statement (.answerWindowWrite access) := Or.inl rfl
theorem statusRead : Statement .statusRead := Or.inl rfl
theorem eventFlagClear (w : Word) : Statement (.eventFlagClear w) := Or.inl rfl
theorem assemblyAbandon (w : Word) : Statement (.assemblyAbandon w) := Or.inr rfl
theorem enableWrite (w : Word) : Statement (.enableWrite w) := Or.inl rfl
theorem malformedMessage : Statement .malformedMessage := Or.inl rfl
theorem create : Statement .create := Or.inl rfl
theorem edit : Statement .edit := Or.inl rfl
theorem retire : Statement .retire := Or.inl rfl
theorem restack : Statement .restack := Or.inl rfl
theorem discard : Statement .discard := Or.inl rfl
theorem publish : Statement .publish := Or.inl rfl
theorem renew : Statement .renew := Or.inl rfl
theorem queryRegion : Statement .queryRegion := Or.inl rfl
theorem queryClient (race : QueryRace) : Statement (.queryClient race) := Or.inl rfl
theorem resume (race : LeaseRace) : Statement (.resume race) := Or.inl rfl
theorem openClient (race : LeaseRace) : Statement (.openClient race) := Or.inl rfl
theorem closeClient (race : LeaseRace) : Statement (.closeClient race) := Or.inl rfl
theorem clearAll (race : LeaseRace) : Statement (.clearAll race) := Or.inl rfl
theorem setPanel : Statement .setPanel := Or.inl rfl
theorem heldAnswerPlacement : Statement .heldAnswerPlacement := Or.inl rfl
theorem lapseNotice : Statement .lapseNotice := Or.inl rfl
theorem copyEndApplication : Statement .copyEndApplication := Or.inl rfl
theorem reloadClaim : Statement .reloadClaim := Or.inl rfl
theorem leaseLoad : Statement .leaseLoad := Or.inl rfl
theorem leaseStop : Statement .leaseStop := Or.inl rfl
theorem leaseFrameStart : Statement .leaseFrameStart := Or.inl rfl
theorem leaseExpiry : Statement .leaseExpiry := Or.inl rfl
theorem frameStart : Statement .frameStart := Or.inl rfl
theorem snapshotFrameStart : Statement .snapshotFrameStart := Or.inl rfl
theorem copyStart : Statement .copyStart := Or.inl rfl
theorem copyComplete : Statement .copyComplete := Or.inl rfl
theorem lineStart : Statement .lineStart := Or.inl rfl
theorem buildComplete : Statement .buildComplete := Or.inl rfl
theorem spanWordAccepted : Statement .spanWordAccepted := Or.inl rfl
theorem pointByteWrite (b : Byte) : Statement (.pointByteWrite b) := Or.inl rfl
theorem lkSelFall (level : PinLevel) : Statement (.lkSelFall level) := Or.inl rfl
theorem lookupAnswerRead : Statement .lookupAnswerRead := Or.inl rfl
theorem lookupTake : Statement .lookupTake := Or.inl rfl
theorem lookupComplete : Statement .lookupComplete := Or.inl rfl

end Sys2Proof.Laws.Sender
end

