-- ==== Sys2Proof/Laws/Requests.lean ====
section
/-! SUPPORT. Requests as the statements speak of them: a request that `Takes` and `Passes` is the kind's own work on the
state `inHand`, its last answer is `placed`, and a load or a stop is `leaseLoaded`, `leaseStopped`, `leasesCleared`. -/

namespace Sys2Proof.Machine

/-! ### Table updates as vector updates -/

theorem setRegion_eq (i : RegionId) (r : Region) (s : State) :
    s.setRegion i r = { s with regions := s.regions.set i r } := by
  have e : (Vector.ofFn fun j => if j = i then r else s.region j) = s.regions.set i r := by
    ext j hj
    simp [State.region, Vector.getElem_set, eq_comm, Fin.ext_iff]
  unfold State.setRegion State.mapRegions
  rw [e]

theorem updClient_eq (k : ClientId) (f : Client → Client) (s : State) :
    s.updClient k f = { s with clients := s.clients.set k (f (s.client k)) } := by
  have e : (Vector.ofFn fun j => if j = k then f (s.client j) else s.client j) = s.clients.set k (f (s.client k)) := by
    ext j hj
    simp only [Vector.getElem_ofFn, Vector.getElem_set, State.client]
    by_cases e : k.val = j
    · subst e; simp
    · have : (⟨j, hj⟩ : ClientId) ≠ k := fun h => e (by rw [← h])
      simp [e, this]
  unfold State.updClient State.mapClients
  rw [e]

/-! ### Answers -/

/-- Where an answer goes does not depend on what the engine was doing. -/
theorem placed_engine (a : Answer) (s : State) (e : Engine) : placed a { s with engine := e } = placed a s := by
  unfold placed
  by_cases h : s.answers.length < 16 <;> simp [h]

theorem placeLast_eq_placed (a : Answer) (s : State) : placeLast a s = placed a s := by
  unfold placed placeLast placeAnswer answerPlaced answerRoom pushAnswer finishPiece
  by_cases h : s.answers.length < 16 <;> simp [h]

/-- An answer with what its piece has left to do, as the statements say it (R76, R82). -/
theorem placeAnswer_eq_answered (a : Answer) (r : Resume) (s : State) : placeAnswer a r s = answered a r s := by
  by_cases h : s.answers.length < 16
  · cases r <;> cases p : s.parked <;> simp [placeAnswer, answerRoom, answered, given, answerPlaced, h, p, Config.answerQueueSize,
      pushAnswer, finishPiece, finishApplication]
  · simp [placeAnswer, answerRoom, answered, h, Config.answerQueueSize]

theorem answerRequest_eq_placed (k : RequestKind) (h : Header) (r : Reply) (s : State) :
    answerRequest k h r s = placed { kind := kindByte k, header := some h, reply := r } s :=
  placeLast_eq_placed _ s

/-- Equal answers placed in states that differ at most in the engine leave the same state. -/
theorem placed_of_eq {a b : Answer} {u v : State} (ha : a = b)
    (h : { u with engine := .free } = { v with engine := .free }) : placed a u = placed b v := by
  subst ha
  rw [← placed_engine a u .free, h, placed_engine]

/-! ### Taking and passing -/

theorem takes_eq {s : State} {kind : Option RequestKind} {m : List Word} {rest : List (List Word)}
    (h : Takes s kind m rest) : takeRequest kind s = some (m, { taken s rest with engine := .working .finish }) := by
  rw [takeRequest_eq_some]
  exact ⟨h.engineFree, h.notDue, h.noNotice, rest, h.oldest, h.ofKind, rfl⟩

theorem clearParked_congr {s t : State} (h : t.parked = s.parked) : clearParked t = clearParked s := by
  unfold clearParked; rw [h]

theorem passes_clientRefusal {s t : State} {kind : RequestKind} {h : Header} (p : Passes s kind h)
    (hc : t.clients = s.clients) : clientRefusal kind h t = none := by
  have e : ∀ k, t.client k = s.client k := fun k => by unfold State.client; rw [hc]
  have h1 := p.isOpen
  have h2 := p.notLapsed
  unfold clientRefusal
  rw [e]
  cases hs : (s.client h.client).state <;> simp_all

theorem passes_laterRefusal {s t : State} {kind : RequestKind} {h : Header} (p : Passes s kind h)
    (hc : t.clients = s.clients) (hp : t.parked = s.parked) : laterRefusal kind h t = none := by
  have e : ∀ k, t.client k = s.client k := fun k => by unfold State.client; rw [hc]
  have h3 := p.notPublishing
  have h4 := p.noClear
  have h5 := p.permitted
  unfold laterRefusal
  rw [e, clearParked_congr hp]
  by_cases a : (s.client h.client).state = .publishing <;> by_cases b : clearParked s = true <;>
    by_cases c : supervisorKind kind = true <;> simp_all

/-- The state on which the own work of a kind begins: the message taken, the reload claim handed over, the engine
WORKING. -/
def inHand (s : State) (rest : List (List Word)) (h : Header) : State :=
  { accepted s rest h with engine := .working .finish }

/-- The piece of a request goes on from what `framedBy` gives, as the statements say it (log 7). -/
theorem goesOnFrom_framedBy {s : State} (h : s.resetLow = false) (race : LeaseRace) : goesOnFrom race s (framedBy race s) := by
  cases race
  · rfl
  · exact whileHigh_high h

/-- Where an answer goes does not depend on a FRAME_START of the piece having found the engine WORKING. -/
theorem placed_framedBy_inHand (a : Answer) (race : LeaseRace) (s : State) (rest : List (List Word)) (h : Header) :
    placed a (framedBy race (inHand s rest h)) = placed a (framedBy race (accepted s rest h)) := by
  have e : framedBy race (inHand s rest h) = { framedBy race (accepted s rest h) with engine := .working .finish } := by
    cases race <;> rfl
  rw [e, placed_engine]

/-- A request that is taken and passes the common checks is the kind's own work on `inHand`, with a FRAME_START of the
piece taken. -/
theorem runRacing_of_passes {s : State} {kind : RequestKind} {m : List Word} {rest : List (List Word)} (race : LeaseRace)
    (own : List Word → Header → State → State) (h : Takes s (some kind) m rest)
    (p : Passes s kind (messageHeader m)) :
    runRacing race kind own s = own m (messageHeader m) (framedBy race (inHand s rest (messageHeader m))) := by
  have f := framedBy_frame race { taken s rest with engine := .working .finish }
  have e1 : (framedBy race { taken s rest with engine := .working .finish }).clients = s.clients := by
    rw [f]; simp [taken]
  have e2 : (framedBy race { taken s rest with engine := .working .finish }).parked = s.parked := by
    rw [f]; simp [taken]
  have e3 : (taken s rest).leaseInbox = [] := by simp [taken]
  unfold runRacing
  rw [takes_eq h]
  simp only
  rw [passes_clientRefusal p e1]
  simp only
  rw [passes_laterRefusal p (by simpa using e1) (by simpa using e2)]
  simp only [← framedBy_handLease]
  simp only [handLease, inHand, accepted, e3, List.nil_append]

theorem runRequest_of_passes {s : State} {kind : RequestKind} {m : List Word} {rest : List (List Word)}
    (own : List Word → Header → State → State) (h : Takes s (some kind) m rest)
    (p : Passes s kind (messageHeader m)) :
    runRequest kind own s = own m (messageHeader m) (inHand s rest (messageHeader m)) :=
  runRacing_of_passes .apart own h p

/-- An answer placed on `inHand` is the answer placed on the accepted state. -/
@[simp] theorem placed_inHand (a : Answer) (s : State) (rest : List (List Word)) (h : Header) :
    placed a (inHand s rest h) = placed a (accepted s rest h) := placed_engine _ _ _

section
variable (s : State) (rest : List (List Word)) (h : Header)

@[simp] theorem accepted_resetLow : (accepted s rest h).resetLow = s.resetLow := by simp [accepted, taken]
@[simp] theorem accepted_flags : (accepted s rest h).flags = s.flags := by simp [accepted, taken]
@[simp] theorem accepted_regions : (accepted s rest h).regions = s.regions := by simp [accepted, taken]
@[simp] theorem accepted_clients : (accepted s rest h).clients = s.clients := by simp [accepted, taken]
@[simp] theorem accepted_bands : (accepted s rest h).bands = s.bands := by simp [accepted, taken]
@[simp] theorem accepted_parked : (accepted s rest h).parked = s.parked := by simp [accepted, taken]
@[simp] theorem accepted_panel : (accepted s rest h).panel = s.panel := by simp [accepted, taken]
@[simp] theorem accepted_committedWork : (accepted s rest h).committedWork = s.committedWork := by simp [accepted, taken]
@[simp] theorem accepted_copyEndDue : (accepted s rest h).copyEndDue = s.copyEndDue := by simp [accepted, taken]
@[simp] theorem accepted_frameCounter : (accepted s rest h).frameCounter = s.frameCounter := by simp [accepted, taken]
@[simp] theorem accepted_lineCounter : (accepted s rest h).lineCounter = s.lineCounter := by simp [accepted, taken]
@[simp] theorem accepted_snapState : (accepted s rest h).snapState = s.snapState := by simp [accepted, taken]
@[simp] theorem accepted_snapFrame : (accepted s rest h).snapFrame = s.snapFrame := by simp [accepted, taken]
@[simp] theorem accepted_listA : (accepted s rest h).listA = s.listA := by simp [accepted, taken]
@[simp] theorem accepted_listB : (accepted s rest h).listB = s.listB := by simp [accepted, taken]
@[simp] theorem accepted_showing : (accepted s rest h).showing = s.showing := by simp [accepted, taken]
@[simp] theorem accepted_builder : (accepted s rest h).builder = s.builder := by simp [accepted, taken]
@[simp] theorem accepted_spanQueue : (accepted s rest h).spanQueue = s.spanQueue := by simp [accepted, taken]
@[simp] theorem accepted_spanPort : (accepted s rest h).spanPort = s.spanPort := by simp [accepted, taken]
@[simp] theorem accepted_pointBytes : (accepted s rest h).pointBytes = s.pointBytes := by simp [accepted, taken]
@[simp] theorem accepted_points : (accepted s rest h).points = s.points := by simp [accepted, taken]
@[simp] theorem accepted_lookup : (accepted s rest h).lookup = s.lookup := by simp [accepted, taken]
@[simp] theorem accepted_lookupAnswers : (accepted s rest h).lookupAnswers = s.lookupAnswers := by simp [accepted, taken]
@[simp] theorem accepted_lookupRead : (accepted s rest h).lookupRead = s.lookupRead := by simp [accepted, taken]
@[simp] theorem accepted_lkSel : (accepted s rest h).lkSel = s.lkSel := by simp [accepted, taken]
@[simp] theorem accepted_lkByte : (accepted s rest h).lkByte = s.lkByte := by simp [accepted, taken]
@[simp] theorem accepted_assembly : (accepted s rest h).assembly = s.assembly := by simp [accepted, taken]
@[simp] theorem accepted_answers : (accepted s rest h).answers = s.answers := by simp [accepted, taken]
@[simp] theorem accepted_answerRead : (accepted s rest h).answerRead = s.answerRead := by simp [accepted, taken]
@[simp] theorem accepted_statusHeld : (accepted s rest h).statusHeld = s.statusHeld := by simp [accepted, taken]
@[simp] theorem accepted_lastReadEmpty : (accepted s rest h).lastReadEmpty = s.lastReadEmpty := by simp [accepted, taken]
@[simp] theorem accepted_enables : (accepted s rest h).enables = s.enables := by simp [accepted, taken]
@[simp] theorem accepted_rqData : (accepted s rest h).rqData = s.rqData := by simp [accepted, taken]
@[simp] theorem accepted_pending : (accepted s rest h).pending = s.pending := by simp [accepted, taken]
@[simp] theorem accepted_requests : (accepted s rest h).requests = rest := rfl
@[simp] theorem accepted_leaseInbox : (accepted s rest h).leaseInbox = [.claim h.client] := rfl
@[simp] theorem accepted_region (i : RegionId) : (accepted s rest h).region i = s.region i := by simp [State.region]
@[simp] theorem accepted_client (k : ClientId) : (accepted s rest h).client k = s.client k := by simp [State.client]
@[simp] theorem inHand_resetLow : (inHand s rest h).resetLow = s.resetLow := by simp [inHand, accepted, taken]
@[simp] theorem inHand_flags : (inHand s rest h).flags = s.flags := by simp [inHand, accepted, taken]
@[simp] theorem inHand_regions : (inHand s rest h).regions = s.regions := by simp [inHand, accepted, taken]
@[simp] theorem inHand_clients : (inHand s rest h).clients = s.clients := by simp [inHand, accepted, taken]
@[simp] theorem inHand_bands : (inHand s rest h).bands = s.bands := by simp [inHand, accepted, taken]
@[simp] theorem inHand_parked : (inHand s rest h).parked = s.parked := by simp [inHand, accepted, taken]
@[simp] theorem inHand_panel : (inHand s rest h).panel = s.panel := by simp [inHand, accepted, taken]
@[simp] theorem inHand_committedWork : (inHand s rest h).committedWork = s.committedWork := by simp [inHand, accepted, taken]
@[simp] theorem inHand_copyEndDue : (inHand s rest h).copyEndDue = s.copyEndDue := by simp [inHand, accepted, taken]
@[simp] theorem inHand_frameCounter : (inHand s rest h).frameCounter = s.frameCounter := by simp [inHand, accepted, taken]
@[simp] theorem inHand_lineCounter : (inHand s rest h).lineCounter = s.lineCounter := by simp [inHand, accepted, taken]
@[simp] theorem inHand_snapState : (inHand s rest h).snapState = s.snapState := by simp [inHand, accepted, taken]
@[simp] theorem inHand_snapFrame : (inHand s rest h).snapFrame = s.snapFrame := by simp [inHand, accepted, taken]
@[simp] theorem inHand_listA : (inHand s rest h).listA = s.listA := by simp [inHand, accepted, taken]
@[simp] theorem inHand_listB : (inHand s rest h).listB = s.listB := by simp [inHand, accepted, taken]
@[simp] theorem inHand_showing : (inHand s rest h).showing = s.showing := by simp [inHand, accepted, taken]
@[simp] theorem inHand_builder : (inHand s rest h).builder = s.builder := by simp [inHand, accepted, taken]
@[simp] theorem inHand_spanQueue : (inHand s rest h).spanQueue = s.spanQueue := by simp [inHand, accepted, taken]
@[simp] theorem inHand_spanPort : (inHand s rest h).spanPort = s.spanPort := by simp [inHand, accepted, taken]
@[simp] theorem inHand_pointBytes : (inHand s rest h).pointBytes = s.pointBytes := by simp [inHand, accepted, taken]
@[simp] theorem inHand_points : (inHand s rest h).points = s.points := by simp [inHand, accepted, taken]
@[simp] theorem inHand_lookup : (inHand s rest h).lookup = s.lookup := by simp [inHand, accepted, taken]
@[simp] theorem inHand_lookupAnswers : (inHand s rest h).lookupAnswers = s.lookupAnswers := by simp [inHand, accepted, taken]
@[simp] theorem inHand_lookupRead : (inHand s rest h).lookupRead = s.lookupRead := by simp [inHand, accepted, taken]
@[simp] theorem inHand_lkSel : (inHand s rest h).lkSel = s.lkSel := by simp [inHand, accepted, taken]
@[simp] theorem inHand_lkByte : (inHand s rest h).lkByte = s.lkByte := by simp [inHand, accepted, taken]
@[simp] theorem inHand_assembly : (inHand s rest h).assembly = s.assembly := by simp [inHand, accepted, taken]
@[simp] theorem inHand_answers : (inHand s rest h).answers = s.answers := by simp [inHand, accepted, taken]
@[simp] theorem inHand_answerRead : (inHand s rest h).answerRead = s.answerRead := by simp [inHand, accepted, taken]
@[simp] theorem inHand_statusHeld : (inHand s rest h).statusHeld = s.statusHeld := by simp [inHand, accepted, taken]
@[simp] theorem inHand_lastReadEmpty : (inHand s rest h).lastReadEmpty = s.lastReadEmpty := by simp [inHand, accepted, taken]
@[simp] theorem inHand_enables : (inHand s rest h).enables = s.enables := by simp [inHand, accepted, taken]
@[simp] theorem inHand_rqData : (inHand s rest h).rqData = s.rqData := by simp [inHand, accepted, taken]
@[simp] theorem inHand_pending : (inHand s rest h).pending = s.pending := by simp [inHand, accepted, taken]
@[simp] theorem inHand_requests : (inHand s rest h).requests = rest := rfl
@[simp] theorem inHand_leaseInbox : (inHand s rest h).leaseInbox = [.claim h.client] := rfl
@[simp] theorem inHand_region (i : RegionId) : (inHand s rest h).region i = s.region i := by simp [State.region]
@[simp] theorem inHand_client (k : ClientId) : (inHand s rest h).client k = s.client k := by simp [State.client]
@[simp] theorem inHand_engine : (inHand s rest h).engine = .working .finish := rfl
@[simp] theorem inHand_guardedCount : guardedCount (inHand s rest h) = guardedCount s := by
  simp [guardedCount, State.idsWhere]
@[simp] theorem inHand_lowestFree : lowestFree (inHand s rest h) = lowestFree s := by simp [lowestFree]
@[simp] theorem inHand_reservedCount (k : ClientId) : reservedCount (inHand s rest h) k = reservedCount s k := by
  simp [reservedCount, State.idsWhere]
end

/-! ### Loads and stops -/

theorem counter_askLease (ms : List LeaseMsg) (s : State) (j : ClientId) :
    (askLease ms s).counter j = (ms.foldl takeLeaseMsg (settleLease s)).counter j := by
  simp [State.counter, (askLease_spec ms s).2.1]

/-- A load, as the statements say it (R93). -/
theorem askLease_load (k : ClientId) (p : Nat) (s : State) : leaseLoaded k p s (askLease [.load k p] s) where
  inbox := (askLease_spec _ s).1
  counters j := by rw [counter_askLease]; exact counter_takeLoad k j p _
  pending := by rw [(askLease_spec _ s).2.2.1]; exact takeLoad_lapsePending k p _

/-- A stop, as the statements say it (R96). -/
theorem askLease_stop (k : ClientId) (s : State) : leaseStopped k s (askLease [.stop k] s) where
  inbox := (askLease_spec _ s).1
  counters j := by rw [counter_askLease]; exact counter_takeStop k j _
  pending := by rw [(askLease_spec _ s).2.2.1]; exact takeStop_lapsePending k _

theorem counter_foldl_stops (ks : List ClientId) (s : State) (j : ClientId) :
    ((ks.map LeaseMsg.stop).foldl takeLeaseMsg s).counter j =
      if j ∈ ks then { count := 0, running := false } else s.counter j := by
  induction ks generalizing s with
  | nil => simp
  | cons k ks ih =>
    rw [List.map_cons, List.foldl_cons, ih, takeLeaseMsg, counter_takeStop]
    by_cases a : j ∈ ks <;> by_cases b : j = k <;> simp [a, b]

/-- The stops of a clear, as the statements say them (R90, R96). -/
theorem applyClear_leases (s : State) : leasesCleared s (applyClear s) where
  inbox := rfl
  counters j := by
    show (askLease ((clientsWhere fun k => decide (k ≠ Config.supervisor)).map .stop) s).counter j = _
    rw [counter_askLease, counter_foldl_stops]
    by_cases h : j = 0 <;> simp [mem_clientsWhere, Config.supervisor, h]
  pending := rfl

/-! ### Fields of messages -/

theorem lowNumber_eq (m : List Word) (n : Nat) : lowNumber m n = (messageWord m n).toNat % 256 := by
  simp [lowNumber, wordField]

theorem enumField_eq (m : List Word) (n : Nat) : enumField m n = (messageWord m n).toNat / 256 % 8 := by
  simp [enumField, wordField]

@[simp] theorem regionNumber_val (i : RegionId) : regionNumber i.val = some i := by simp [regionNumber]

theorem regionNumber_none {n : Nat} (h : 64 ≤ n) : regionNumber n = none := by simp [regionNumber]; omega

end Sys2Proof.Machine
end

