-- ==== Sys2Proof/Tests/Slice0.lean ====
section
/-! SUPPORT. Tests: the smoke test of WellFormed, one step of a command on a small state with the outcome the spec gives,
and, for each statement with hypotheses, a state and operands that meet them. -/

namespace Sys2Proof.Tests

open Sys2Proof.Machine

/-! ### Well-formed commands (R168) -/

theorem test_abandon_needs_its_bit : (Instr.assemblyAbandon 0x7FFF).wellFormed = false := by decide

theorem test_abandon_with_its_bit : (Instr.assemblyAbandon 0x8000).wellFormed = true := by decide

/-! ### A small table

Regions 0, 4 and 5 are LIVE of client 1 (4 edited, 5 marked), 1 and 2 RESERVED of client 1, 3 LIVE and 6 RESERVED of
client 0, 63 LIVE of client 2. Client 1 is ACTIVE, 2 LAPSED, 3 PUBLISHING, 4 CLOSING, the others but 0 CLOSED. -/

def rect (x y : Nat) : Geometry := { x := x, y := y, width := 10, height := 10 }

def source : Source := { plane := 1, wrapWidth := 100, wrapHeight := 100, originColumn := 0, originRow := 0 }

def solidPart (x y : Nat) : Part :=
  { geometry := rect x y, source := source, appearance := { opacity := .solid, visible := true, touch := .accepts } }

def liveOf (k : ClientId) (b : Band) (x y : Nat) (st : Option StagedPart) : Region :=
  .live { owner := k, band := b, committed := solidPart x y, staged := st, changed := 3 }

def reservedOf (k : ClientId) (b : Band) (x y n : Nat) : Region :=
  .reserved { owner := k, band := b, staged := solidPart x y, order := n }

def regions : Vector Region 64 :=
  Vector.ofFn fun i =>
    match i.val with
    | 0 => liveOf 1 .ordinary 0 0 none
    | 1 => reservedOf 1 .ordinary 40 0 1
    | 2 => reservedOf 1 .ordinary 50 0 2
    | 3 => liveOf 0 .guarded 20 20 none
    | 4 => liveOf 1 .ordinary 10 0 (some { part := solidPart 12 0, retire := false })
    | 5 => liveOf 1 .ordinary 30 0 (some { part := solidPart 30 0, retire := true })
    | 6 => reservedOf 0 .guarded 25 25 1
    | 63 => liveOf 2 .elevated 0 50 none
    | _ => .free

def terms (b : Band) (quota period : Nat) : Option Terms := some { cls := b, quota := quota, period := period }

def clients : Vector Client 16 :=
  Vector.ofFn fun k =>
    match k.val with
    | 0 => { supervisorClient with owned := 2 }
    | 1 => { state := .active, terms := terms .ordinary 6 5, owned := 5, parkedEntry := false
             moves := [{ subject := 0, placement := .above 4, dead := false }] }
    | 2 => { state := .lapsed, terms := terms .elevated 3 7, owned := 1, moves := [], parkedEntry := false }
    | 3 => { state := .publishing, terms := terms .ordinary 3 0, owned := 0, moves := [], parkedEntry := true }
    | 4 => { state := .closing, terms := terms .ordinary 3 0, owned := 0, moves := [], parkedEntry := true }
    | _ => closedClient

/-- The small table with the unit IDLE in frame 9, client 1's lease RUNNING and LK_SEL high. -/
def table : State :=
  { State.reset with
    regions := regions, clients := clients, panel := { width := 100, height := 90 }, snapFrame := 9, lkSel := true
    counters := State.reset.counters.set 1 { count := 3, running := true }
    bands := { guarded := [3], elevated := [63], ordinary := [0, 4, 5] } }

/-- The small table during a copy about to complete, with a parked publish of client 3 and a parked close of client 4. -/
def copying : State :=
  { table with
    pending := [.copyComplete]
    snapState := .copying { visible := [0, 1, 3], panel := { width := 100, height := 90 } }
    parked := [.publish 3 7, .close 4 8] }

/-- A state with one message waiting. -/
def asking (s : State) (m : List Word) : State :=
  { s with requests := [m] }

/-- The result of a command. -/
def after (c : Instr) (s : State) : State :=
  match exec c s with
  | .next t => t
  | _ => s

theorem bands_hold (s : State) (r : s.regions = table.regions) (b : s.bands = table.bands) : BandListsHold s := by
  intro band
  have e : ∀ i, s.region i = table.region i := fun i => by unfold State.region; rw [r]
  rw [b]
  simp only [e]
  cases band <;> exact ⟨by decide, by decide⟩

/-! ### Messages -/

/-- A message of one client with tag 7. -/
def msg (kind client : Nat) (ws : List Word) : List Word :=
  [BitVec.ofNat 16 (kind * 256 + ws.length + 2), BitVec.ofNat 16 (client * 4096 + 7)] ++ ws

def createWords : List Word := [60, 60, 10, 10, 1, 100, 100, 0, 0, 0x0600]

/-- `Takes`, as a check. -/
def takesCheck (s : State) (kind : Option RequestKind) (m : List Word) : Bool :=
  !s.resetLow && decide (s.engine = .free) && !s.copyEndDue && decide ((settleLease s).lapsePending = [])
    && decide (s.requests = [m]) && decide (messageKind m = kind)

theorem takes {s : State} {kind : Option RequestKind} {m : List Word} (h : takesCheck s kind m = true) :
    Takes s kind m [] := by
  simp only [takesCheck, Bool.and_eq_true, decide_eq_true_eq, Bool.not_eq_true'] at h
  exact ⟨h.1.1.1.1.1, h.1.1.1.1.2, h.1.1.1.2, h.1.1.2, h.1.2, h.2⟩

/-- `Passes`, as a check. -/
def passesCheck (s : State) (kind : RequestKind) (h : Header) : Bool :=
  decide ((s.client h.client).state ≠ .closed ∧ (s.client h.client).state ≠ .closing)
    && decide ((s.client h.client).state = .lapsed → kind = .resume ∨ kind = .queryClient)
    && decide ((s.client h.client).state = .publishing → stagingKind kind = false)
    && decide (clearParked s = true → queryKind kind = true)
    && decide (supervisorKind kind = true → h.client = 0)

theorem passes {s : State} {kind : RequestKind} {h : Header} (p : passesCheck s kind h = true) : Passes s kind h := by
  simp only [passesCheck, Bool.and_eq_true, decide_eq_true_eq] at p
  exact ⟨p.1.1.1.1, p.1.1.1.2, p.1.1.2, p.1.2, p.2⟩

/-- A request of client `k` that the engine takes next and that passes the common checks. -/
def Accepts (s : State) (kind : RequestKind) (m : List Word) : Prop :=
  Takes s (some kind) m [] ∧ Passes s kind (messageHeader m)

theorem accepts {s : State} {kind : RequestKind} {m : List Word}
    (h : (takesCheck s (some kind) m && passesCheck s kind (messageHeader m)) = true) : Accepts s kind m := by
  rw [Bool.and_eq_true] at h
  exact ⟨takes h.1, passes h.2⟩

/-- The state in which client `k`'s request is the one message waiting. -/
abbrev requests (s : State) (kind k : Nat) (ws : List Word) : State := asking s (msg kind k ws)

/-! ### Hypotheses met: one step, the Request Port -/

theorem witness_StepRunsFrontCommand :
    { State.reset with pending := [.frameStart, .lineStart] }.pending = [.frameStart, .lineStart]
      ∧ State.reset.pending = [] := ⟨rfl, rfl⟩

theorem witness_DeviceResetValues :
    (after (.deviceReset .low) table).resetLow = true ∧ (after (.deviceReset .high) table).resetLow = false := by decide

/-- Length fields 2, 0, 1 and 31 (R165), and an admission with room for one message and with none. -/
theorem witness_RequestWordAssembles :
    State.reset.resetLow = false ∧ (0x0602 : Word).toNat % 32 = 2 ∧ (0x0620 : Word).toNat % 32 = 0 ∧ (0x0601 : Word).toNat % 32 = 1
      ∧ min ((0x061F : Word).toNat % 32) 16 = 16
      ∧ { State.reset with requests := List.replicate 15 [0x0001] }.requests.length < 16
      ∧ 16 ≤ { State.reset with requests := List.replicate 16 [0x0001] }.requests.length := by decide

def refused : Answer := { kind := 6, header := some { client := 5, tag := 9 }, reply := refusal .noClient }

/-- Words 1 and 3 of an answer of three words: one with a word after it, and the last, also with the engine STALLED and the
queue full. -/
theorem witness_AnswerReadNext :
    let full := { table with answers := refused :: List.replicate 15 refused, engine := .stalled refused .finish, answerRead := 2 }
    full.resetLow = false ∧ State.reset.resetLow = false ∧ (answerWords refused)[0]? = some 0x0603 ∧ (answerWords refused)[2]? = some 0x5009
      ∧ (answerWords refused).length = 3 ∧ { State.reset with answers := [refused] }.answers = refused :: []
      ∧ State.reset.answers = [] ∧ full.engine = .stalled refused .finish ∧ (List.replicate 15 refused).length < 16 := by
  decide

theorem witness_StatusReadPair :
    State.reset.resetLow = false ∧ State.reset.statusHeld = none
      ∧ { State.reset with statusHeld := some (statusSnapshot State.reset) }.statusHeld = some (statusSnapshot State.reset)
      ∧ (statusSnapshot State.reset).queueRoom = 16 ∧ (statusSnapshot State.reset).answersWaiting ≤ 16
      ∧ (statusSnapshot State.reset).wordsRemaining ≤ 24 := by decide

theorem witness_StatusWriteClears :
    table.resetLow = false ∧ (Instr.assemblyAbandon 0x8001).wellFormed = true := by decide

theorem witness_EnableWriteReplaces :
    table.resetLow = false ∧ { cs := false, wr := true, rd := false, a := 0, d := 5 : RequestPins }.cs = false
      ∧ { cs := true, wr := true, rd := true, a := 0, d := 5 : RequestPins }.wr = true := by decide

/-! ### Hypotheses met: common checks -/

theorem witness_MalformedAnswered :
    Takes (asking table [0x0601]) none [0x0601] [] ∧ Takes (asking table [0x0F02, 0x1007]) none [0x0F02, 0x1007] []
      ∧ messageKind (msg 6 1 []) = some .publish :=
  ⟨takes (by decide), takes (by decide), by decide⟩

/-- A CLOSED, a CLOSING and a LAPSED asker; a PUBLISHING asker of a staging kind; askers while a CLEAR_ALL is parked, one of
them a LAPSED client's RESUME; a supervisor kind from client 1. -/
theorem witness_CommonChecksRefuse :
    let clear := { copying with parked := [.clearAll 7] }
    (Takes (requests table 7 9 []) (some .renew) (msg 7 9 []) [] ∧ (table.client 9).state = .closed)
      ∧ (Takes (requests table 7 4 []) (some .renew) (msg 7 4 []) [] ∧ (table.client 4).state = .closing)
      ∧ (Takes (requests table 7 2 []) (some .renew) (msg 7 2 []) [] ∧ (table.client 2).state = .lapsed)
      ∧ (Takes (requests table 5 3 []) (some .discard) (msg 5 3 []) [] ∧ (table.client 3).state = .publishing)
      ∧ (Takes (requests clear 10 2 []) (some .resume) (msg 10 2 []) [] ∧ clearParked clear = true)
      ∧ (Takes (requests clear 7 1 []) (some .renew) (msg 7 1 []) [] ∧ (table.client 1).state = .active)
      ∧ Takes (requests table 13 1 []) (some .clearAll) (msg 13 1 []) []
      ∧ Takes (requests table 9 4 [4]) (some .queryClient) (msg 9 4 [4]) [] :=
  ⟨⟨takes (by decide), by decide⟩, ⟨takes (by decide), by decide⟩, ⟨takes (by decide), by decide⟩,
    ⟨takes (by decide), by decide⟩, ⟨takes (by decide), by decide⟩, ⟨takes (by decide), by decide⟩, takes (by decide),
    takes (by decide)⟩

/-! ### Hypotheses met: staging -/

theorem witness_CreateReserves :
    Accepts (requests table 1 1 createWords) .create (msg 1 1 createWords)
      ∧ ((table.client 1).terms = some { cls := .ordinary, quota := 6, period := 5 } ∧ (table.client 1).owned ≠ 6)
      ∧ table.region 7 = .free ∧ (∀ j, j < 7 → table.region j ≠ .free)
      ∧ partValid table.panel .ordinary (createPart (msg 1 1 createWords))
      ∧ Accepts (requests table 1 0 createWords) .create (msg 1 0 createWords) ∧ guardedCount table < 4
      ∧ (table.client 0).owned ≠ 64 :=
  ⟨accepts (by decide), by decide, by decide, by decide, ⟨by decide, by decide, by decide⟩, accepts (by decide), by decide,
    by decide⟩

/-- The seven refusals: no panel; the quota reached; no FREE record; a fourth guarded region; then a bad group each. -/
theorem witness_CreateRefused :
    let quota := { table with clients := clients.set 1 { clients[1] with owned := 6 } }
    let full := { table with regions := Vector.replicate 64 (reservedOf 3 .ordinary 0 0 1) }
    let four := { table with
      regions := (regions.set 7 (reservedOf 0 .guarded 0 0 2)).set 8 (reservedOf 0 .guarded 0 0 3) }
    let geometry := [91, 60, 10, 10, 1, 100, 100, 0, 0, 0x0600]
    let sources := [90, 80, 10, 10, 8, 100, 100, 0, 0, 0x0600]
    let keyed := [90, 80, 10, 10, 7, 100, 100, 99, 0, 0x0700]
    let sent (ws : List Word) := createPart (msg 1 0 ws)
    Accepts (requests { table with panel := { width := 0, height := 0 } } 1 1 createWords) .create (msg 1 1 createWords)
      ∧ (Accepts (requests quota 1 1 createWords) .create (msg 1 1 createWords) ∧ (quota.client 1).owned = 6)
      ∧ (Accepts (requests full 1 1 createWords) .create (msg 1 1 createWords) ∧ ∀ i, full.region i ≠ .free)
      ∧ (Accepts (requests four 1 0 createWords) .create (msg 1 0 createWords) ∧ guardedCount four = 4)
      ∧ (Accepts (requests table 1 0 geometry) .create (msg 1 0 geometry)
        ∧ (sent geometry).geometry.valid table.panel = false)
      ∧ (Accepts (requests table 1 0 sources) .create (msg 1 0 sources)
        ∧ (sent sources).geometry.valid table.panel = true ∧ (sent sources).source.valid = false)
      ∧ (Accepts (requests table 1 0 keyed) .create (msg 1 0 keyed) ∧ (sent keyed).geometry.valid table.panel = true
        ∧ (sent keyed).source.valid = true ∧ (sent keyed).appearance.valid .guarded = false)
      ∧ (table.client 0).terms = some { cls := .guarded, quota := 64, period := 0 } :=
  ⟨accepts (by decide), ⟨accepts (by decide), by decide⟩, ⟨accepts (by decide), by decide⟩,
    ⟨accepts (by decide), by decide⟩, ⟨accepts (by decide), by decide⟩, ⟨accepts (by decide), by decide⟩,
    ⟨accepts (by decide), by decide⟩, by decide⟩

/-- A RESERVED region, a LIVE one without a staged part and one with. -/
theorem witness_EditStages :
    Accepts (requests table 2 1 [0x0401, 0x0600]) .edit (msg 2 1 [0x0401, 0x0600])
      ∧ Accepts (requests table 2 1 [0x0100, 80, 80, 20, 10]) .edit (msg 2 1 [0x0100, 80, 80, 20, 10])
      ∧ Accepts (requests table 2 1 [0x0204, 7, 1, 1, 0, 0]) .edit (msg 2 1 [0x0204, 7, 1, 1, 0, 0])
      ∧ table.region 1 = reservedOf 1 .ordinary 40 0 1 ∧ table.region 0 = liveOf 1 .ordinary 0 0 none
      ∧ (rect 80 80).valid table.panel = true
      ∧ (editGroups (msg 2 1 [0x0204, 7, 1, 1, 0, 0])).source = some ⟨7, 1, 1, 0, 0⟩
      ∧ (⟨7, 1, 1, 0, 0⟩ : Source).valid = true :=
  ⟨accepts (by decide), accepts (by decide), accepts (by decide), by decide, by decide, by decide, by decide, by decide⟩

theorem witness_EditRefused :
    Accepts (requests table 2 1 [0x0440, 0]) .edit (msg 2 1 [0x0440, 0])
      ∧ Accepts (requests table 2 1 [0x043F, 0]) .edit (msg 2 1 [0x043F, 0]) ∧ regionOwner (table.region 63) ≠ some 1
      ∧ Accepts (requests table 2 1 [0x0405, 0]) .edit (msg 2 1 [0x0405, 0]) ∧ retireMarked (table.region 5) = true
      ∧ Accepts (requests table 2 1 [0x0100, 91, 0, 10, 10]) .edit (msg 2 1 [0x0100, 91, 0, 10, 10])
      ∧ (⟨91, 0, 10, 10⟩ : Geometry).valid table.panel = false
      ∧ Accepts (requests table 2 1 [0x0200, 8, 1, 1, 0, 0]) .edit (msg 2 1 [0x0200, 8, 1, 1, 0, 0])
      ∧ (⟨8, 1, 1, 0, 0⟩ : Source).valid = false
      ∧ Accepts (requests table 2 0 [0x0403, 0x0100]) .edit (msg 2 0 [0x0403, 0x0100])
      ∧ regionBand (table.region 3) = some .guarded ∧ regionOwner (table.region 3) = some 0
      ∧ (⟨.keyed, false, .absorbs⟩ : Appearance).valid .guarded = false :=
  ⟨accepts (by decide), accepts (by decide), by decide, accepts (by decide), by decide, accepts (by decide), by decide,
    accepts (by decide), by decide, accepts (by decide), by decide, by decide, by decide⟩

theorem witness_RetireMarksOrFrees :
    BandListsHold (requests table 3 1 [0])
      ∧ Accepts (requests table 3 1 [0x40]) .retire (msg 3 1 [0x40])
      ∧ Accepts (requests table 3 1 [0x3F]) .retire (msg 3 1 [0x3F])
      ∧ Accepts (requests table 3 1 [0]) .retire (msg 3 1 [0])
      ∧ Accepts (requests table 3 1 [1]) .retire (msg 3 1 [1]) ∧ table.region 1 = reservedOf 1 .ordinary 40 0 1
      ∧ Accepts (requests table 3 1 [4]) .retire (msg 3 1 [4]) ∧ (table.region 4) ≠ liveOf 1 .ordinary 10 0 none :=
  ⟨bands_hold _ rfl rfl, accepts (by decide), accepts (by decide), accepts (by decide), accepts (by decide), by decide,
    accepts (by decide), by decide⟩

/-- The four placements; a LIVE reference and the asker's RESERVED one. -/
theorem witness_RestackAppends :
    Accepts (requests table 4 1 [0x0001, 0xFFFF]) .restack (msg 4 1 [0x0001, 0xFFFF])
      ∧ Accepts (requests table 4 1 [0x0100, 0]) .restack (msg 4 1 [0x0100, 0])
      ∧ Accepts (requests table 4 1 [0x0200, 5]) .restack (msg 4 1 [0x0200, 5])
      ∧ Accepts (requests table 4 1 [0x0300, 2]) .restack (msg 4 1 [0x0300, 2])
      ∧ (regionOwner (table.region 0) = some 1 ∧ regionBand (table.region 0) = some .ordinary
        ∧ retireMarked (table.region 0) = false)
      ∧ (regionBand (table.region 5) = some .ordinary ∧ isLive (table.region 5) = true)
      ∧ (regionBand (table.region 2) = some .ordinary ∧ regionOwner (table.region 2) = some 1)
      ∧ (table.client 1).moves.length < 8 :=
  ⟨accepts (by decide), accepts (by decide), accepts (by decide), accepts (by decide), by decide, by decide, by decide,
    by decide⟩

/-- Kind 4, subject 64, reference 64; then another's subject, a marked one, a reference equal to the subject, a FREE one,
one of another band, another client's RESERVED one, and a full list. -/
theorem witness_RestackRefused :
    Accepts (requests table 4 1 [0x0400, 0]) .restack (msg 4 1 [0x0400, 0])
      ∧ Accepts (requests table 4 1 [0x0040, 0]) .restack (msg 4 1 [0x0040, 0])
      ∧ Accepts (requests table 4 1 [0x0200, 0x40]) .restack (msg 4 1 [0x0200, 0x40])
      ∧ Accepts (requests table 4 1 [0x023F, 0]) .restack (msg 4 1 [0x023F, 0])
      ∧ Accepts (requests table 4 1 [0x0305, 0]) .restack (msg 4 1 [0x0305, 0])
      ∧ Accepts (requests table 4 1 [0x0200, 0]) .restack (msg 4 1 [0x0200, 0])
      ∧ Accepts (requests table 4 1 [0x0200, 7]) .restack (msg 4 1 [0x0200, 7]) ∧ table.region 7 = .free
      ∧ Accepts (requests table 4 1 [0x0200, 63]) .restack (msg 4 1 [0x0200, 63])
      ∧ regionBand (table.region 63) = some .elevated
      ∧ Accepts (requests { table with regions := regions.set 8 (reservedOf 3 .ordinary 0 0 1) } 4 1 [0x0200, 8]) .restack
          (msg 4 1 [0x0200, 8])
      ∧ (let s := { table with clients := clients.set 1 { clients[1] with
            moves := List.replicate 8 { subject := 0, placement := .top, dead := true } } }
        Accepts (requests s 4 1 [0x0200, 5]) .restack (msg 4 1 [0x0200, 5]) ∧ 8 ≤ (s.client 1).moves.length) :=
  ⟨accepts (by decide), accepts (by decide), accepts (by decide), accepts (by decide), accepts (by decide),
    accepts (by decide), accepts (by decide), by decide, accepts (by decide), by decide, accepts (by decide),
    accepts (by decide), by decide⟩

theorem witness_DiscardEmptiesStaging :
    BandListsHold (requests table 5 1 []) ∧ Accepts (requests table 5 1 []) .discard (msg 5 1 []) :=
  ⟨bands_hold _ rfl rfl, accepts (by decide)⟩

/-- A client with nothing staged, a client with staging during a copy, and a RENEW. -/
theorem witness_PublishWaitsOrAnswers :
    Accepts (requests { table with regions := Vector.replicate 64 .free } 6 0 []) .publish (msg 6 0 [])
      ∧ (table.client 0).moves = []
      ∧ Accepts (requests copying 6 1 []) .publish (msg 6 1 []) ∧ isCopying copying = true
      ∧ isReservedOf 1 (copying.region 1) = true
      ∧ Accepts (requests table 7 1 []) .renew (msg 7 1 []) :=
  ⟨accepts (by decide), by decide, accepts (by decide), by decide, by decide, accepts (by decide)⟩

/-! ### Hypotheses met: applied publishes -/

/-- Only regions 3 and 6 are in the guard set of client 0. -/
theorem guard_set : ∀ i, guardRect 0 (table.region i) ≠ none → i = 3 ∨ i = 6 := by decide

/-- Two regions that clash in the guard set of client 0 are 3 and 6, in some order. -/
theorem clash_pair {i j : RegionId} (h : clash 0 table i j) : (i = 3 ∧ j = 6) ∨ (i = 6 ∧ j = 3) := by
  obtain ⟨ij, x, y, hx, hy, -⟩ := h
  rcases guard_set i (by rw [hx]; simp) with rfl | rfl <;> rcases guard_set j (by rw [hy]; simp) with rfl | rfl <;> simp_all

/-- Client 0 creates region 6 across region 3. -/
theorem witness_PublishRefusedOnOverlap :
    Accepts (requests table 6 0 []) .publish (msg 6 0 []) ∧ isCopying table = false ∧ stagingEmpty 0 table = false
      ∧ overlapNamed 0 table 3 6 := by
  refine ⟨accepts (by decide), by decide, by decide, ⟨by decide, rect 20 20, rect 25 25, by decide, by decide, by decide⟩, ?_, ?_⟩
  · intro i j h c
    rcases clash_pair c with ⟨rfl, -⟩ | ⟨rfl, -⟩ <;> exact absurd h (by decide)
  · intro j h c
    rcases clash_pair c with ⟨-, rfl⟩ | ⟨e, -⟩
    · exact absurd h (by decide)
    · exact absurd e (by decide)

/-- Client 1's publish: only region 3 of client 0 is in its guard set. -/
theorem witness_PublishCommits :
    Accepts (requests table 6 1 []) .publish (msg 6 1 []) ∧ isCopying table = false ∧ stagingEmpty 1 table = false
      ∧ ∀ i j, ¬ clash 1 table i j := by
  refine ⟨accepts (by decide), by decide, by decide, ?_⟩
  rintro i j ⟨ij, x, y, hx, hy, -⟩
  have only : ∀ i, guardRect 1 (table.region i) ≠ none → i = 3 := by decide
  exact ij ((only i (by rw [hx]; simp)).trans (only j (by rw [hy]; simp)).symm)

theorem witness_MovesPlaceSubject :
    ([0, 4, 5] : List RegionId).Nodup ∧ (4 : RegionId) ∈ ([0, 4, 5] : List RegionId)
      ∧ (5 : RegionId) ≠ 4 ∧ (5 : RegionId) ∈ ([0, 4, 5] : List RegionId) := by decide

/-! ### Hypotheses met: queries and clients -/

theorem witness_QueryRegionReports :
    Accepts (requests table 8 1 [0x40]) .queryRegion (msg 8 1 [0x40])
      ∧ Accepts (requests copying 8 3 [0x3F]) .queryRegion (msg 8 3 [0x3F])
      ∧ table.region 4 = liveOf 1 .ordinary 10 0 (some { part := solidPart 12 0, retire := false })
      ∧ table.bands.get .ordinary = [0] ++ 4 :: [5] ∧ isLive (table.region 1) = false :=
  ⟨accepts (by decide), accepts (by decide), by decide, by decide, by decide⟩

/-- A number out of range, another client, the asker itself, and client 0's question; a RUNNING counter at 1. -/
theorem witness_QueryClientReports :
    let s := { table with counters := table.counters.set 1 { count := 1, running := true } }
    Accepts (requests s 9 1 [16]) .queryClient (msg 9 1 [16]) ∧ Accepts (requests s 9 1 [2]) .queryClient (msg 9 1 [2])
      ∧ Accepts (requests s 9 1 [1]) .queryClient (msg 9 1 [1])
      ∧ Accepts (requests s 9 0 [15]) .queryClient (msg 9 0 [15]) :=
  ⟨accepts (by decide), accepts (by decide), accepts (by decide), accepts (by decide)⟩

theorem witness_ResumeReturns :
    Accepts (requests table 10 2 []) .resume (msg 10 2 []) ∧ (table.client 2).terms = terms .elevated 3 7
      ∧ (table.client 2).state = .lapsed
      ∧ Accepts (requests table 10 1 []) .resume (msg 10 1 []) ∧ (table.client 1).state ≠ .lapsed :=
  ⟨accepts (by decide), by decide, by decide, accepts (by decide), by decide⟩

/-- Each field just out of range, an open target, and a CLOSED one with the fields at their bounds. -/
theorem witness_OpenClientOpens :
    Accepts (requests table 11 0 [0x0000, 1, 0]) .openClient (msg 11 0 [0x0000, 1, 0])
      ∧ Accepts (requests table 11 0 [0x0010, 1, 0]) .openClient (msg 11 0 [0x0010, 1, 0])
      ∧ Accepts (requests table 11 0 [0x030F, 1, 0]) .openClient (msg 11 0 [0x030F, 1, 0])
      ∧ Accepts (requests table 11 0 [0x0001, 65, 0]) .openClient (msg 11 0 [0x0001, 65, 0])
      ∧ Accepts (requests table 11 0 [0x0001, 1, 1024]) .openClient (msg 11 0 [0x0001, 1, 1024])
      ∧ Accepts (requests table 11 0 [0x0001, 1, 0]) .openClient (msg 11 0 [0x0001, 1, 0])
      ∧ Accepts (requests table 11 0 [0x020F, 64, 1023]) .openClient (msg 11 0 [0x020F, 64, 1023])
      ∧ (table.client 1).state ≠ .closed ∧ (table.client 15).state = .closed :=
  ⟨accepts (by decide), accepts (by decide), accepts (by decide), accepts (by decide), accepts (by decide),
    accepts (by decide), accepts (by decide), by decide, by decide⟩

theorem witness_CloseAppliedAtOnce :
    Accepts (requests table 12 0 [0]) .closeClient (msg 12 0 [0])
      ∧ Accepts (requests table 12 0 [16]) .closeClient (msg 12 0 [16])
      ∧ Accepts (requests table 12 0 [15]) .closeClient (msg 12 0 [15]) ∧ (table.client 15).state = .closed
      ∧ Accepts (requests table 12 0 [1]) .closeClient (msg 12 0 [1]) ∧ (table.client 1).state = .active
      ∧ isCopying table = false ∧ table.parked = [] :=
  ⟨accepts (by decide), accepts (by decide), accepts (by decide), by decide, accepts (by decide), by decide, by decide,
    by decide⟩

/-- A target with nothing parked, and one whose publish is parked, with a full Answer Queue in the last state. -/
theorem witness_CloseParks :
    BandListsHold (requests copying 12 0 [1])
      ∧ Accepts (requests copying 12 0 [1]) .closeClient (msg 12 0 [1])
      ∧ (∀ e ∈ copying.parked, isPublishOf 1 e = false)
      ∧ Accepts (requests copying 12 0 [3]) .closeClient (msg 12 0 [3])
      ∧ copying.parked = [] ++ .publish 3 7 :: [.close 4 8] ∧ isPublishOf 3 (.close 4 8) = false
      ∧ Accepts (requests { copying with answers := List.replicate 16 refused } 12 0 [3]) .closeClient (msg 12 0 [3])
      ∧ isCopying copying = true :=
  ⟨bands_hold _ rfl rfl, accepts (by decide), by decide, accepts (by decide), by decide, by decide, accepts (by decide),
    by decide⟩

theorem witness_ClearAllClears :
    Accepts (requests copying 13 0 []) .clearAll (msg 13 0 []) ∧ isCopying copying = true
      ∧ Accepts (requests table 13 0 []) .clearAll (msg 13 0 []) ∧ isCopying table = false :=
  ⟨accepts (by decide), by decide, accepts (by decide), by decide⟩

/-- Sizes just out of range, a size in range with the table in use, and the bounds with no region. -/
theorem witness_SetPanelSets :
    let empty := { table with regions := Vector.replicate 64 .free }
    Accepts (requests table 14 0 [2049, 1536]) .setPanel (msg 14 0 [2049, 1536])
      ∧ Accepts (requests table 14 0 [0, 16]) .setPanel (msg 14 0 [0, 16])
      ∧ Accepts (requests table 14 0 [16, 16]) .setPanel (msg 14 0 [16, 16]) ∧ table.region 0 ≠ .free
      ∧ Accepts (requests empty 14 0 [2048, 1536]) .setPanel (msg 14 0 [2048, 1536]) ∧ (∀ i, empty.region i = .free) :=
  ⟨accepts (by decide), accepts (by decide), accepts (by decide), by decide, accepts (by decide), by decide⟩

/-! ### Hypotheses met: the engine's other work, leases -/

theorem witness_HeldAnswerPlaced :
    let held := { copying with engine := .stalled refused (.closeTail 3 7 true), answers := List.replicate 16 refused }
    held.resetLow = false ∧ held.engine = .stalled refused (.closeTail 3 7 true) ∧ 16 ≤ held.answers.length
      ∧ { held with answers := held.answers.tail }.answers.length < 16
      ∧ { table with engine := .stalled refused .finish }.engine = .stalled refused .finish
      ∧ { table with engine := .working (.closeTail 3 7 true) }.engine = .working (.closeTail 3 7 true)
      ∧ { table with engine := .working .application }.engine = .working .application := by decide

theorem witness_parked : ParkedListHolds copying :=
  { onePerClient := by decide
    clearLast := by intro tag; change ParkedEntry.clearAll tag ∉ [ParkedEntry.publish 3 7]; simp
    publishing := by
      intro k tag h
      change ParkedEntry.publish k tag ∈ [ParkedEntry.publish 3 7, .close 4 8] at h
      obtain ⟨rfl, rfl⟩ : k = 3 ∧ tag = 7 := by simpa using h
      decide
    closing := by
      intro k tag h
      change ParkedEntry.close k tag ∈ [ParkedEntry.publish 3 7, .close 4 8] at h
      obtain ⟨rfl, rfl⟩ : k = 4 ∧ tag = 8 := by simpa using h
      decide
    heldTarget := fun _ _ h => by cases h }

/-- Client 3's notice with its publish parked, client 1's with nothing parked, client 9's (CLOSED). -/
theorem witness_LapseNoticeTaken :
    let s (k : ClientId) := { copying with lapsePending := [k, 10] }
    (settleLease (s 3)).lapsePending = 3 :: [10] ∧ (settleLease (s 1)).lapsePending = 1 :: [10]
      ∧ (settleLease (s 9)).lapsePending = 9 :: [10]
      ∧ (∀ k, (s k).resetLow = false ∧ (s k).engine = .free ∧ (s k).copyEndDue = false ∧ BandListsHold (s k) ∧ ParkedListHolds (s k))
      ∧ (copying.client 3).state = .publishing ∧ (copying.client 1).state = .active
      ∧ (copying.client 1).parkedEntry = false ∧ (copying.client 9).state = .closed :=
  ⟨by decide, by decide, by decide,
    fun _ => ⟨rfl, rfl, rfl, bands_hold _ rfl rfl, ⟨witness_parked.onePerClient, witness_parked.clearLast,
      witness_parked.publishing, witness_parked.closing, witness_parked.heldTarget⟩⟩,
    by decide, by decide, by decide, by decide⟩

/-- The first of two entries, and a later entry of an application in hand; a PUBLISH without overlap, one with, a CLOSE, a
CLEAR_ALL, and no entry. -/
theorem witness_CopyEndApplied :
    let due := { copying with snapState := .ready, copyEndDue := true }
    let later := { due with engine := .working .application, parked := [.close 4 8, .clearAll 9] }
    let overlap := { due with parked := [.publish 0 7] }
    (due.resetLow = false ∧ (due.engine = .free ∧ due.copyEndDue = true) ∧ due.parked = .publish 3 7 :: [.close 4 8]
      ∧ later.engine = .working .application ∧ later.parked = .close 4 8 :: [.clearAll 9]
      ∧ { due with parked := [.clearAll 9] }.parked = [ParkedEntry.clearAll 9]
      ∧ { due with parked := [] }.parked = [] ∧ overlap.parked = .publish 0 7 :: [])
      ∧ (∀ i j, ¬ clash 3 due i j) ∧ clash 0 overlap 3 6 := by
  refine ⟨by decide, ?_, by decide, rect 20 20, rect 25 25, by decide, by decide, by decide⟩
  rintro i j ⟨ij, x, y, hx, hy, -⟩
  have only : ∀ i, guardRect 3 (table.region i) ≠ none → i = 3 := by decide
  exact ij ((only i (by rw [show guardRect 3 (table.region i) = some x from hx]; simp)).trans
    (only j (by rw [show guardRect 3 (table.region j) = some y from hy]; simp)).symm)

/-- A claim on a RUNNING counter, a load with period 0 and 1023, a stop of a client in the set. -/
theorem witness_LeaseMessagesTaken :
    let s := { table with counters := table.counters.set 1 { count := 1, running := true }, lapsePending := [2] }
    s.resetLow = false ∧ { s with leaseInbox := [.claim 1] }.leaseInbox = .claim 1 :: []
      ∧ { s with leaseInbox := [.load 2 0, .load 2 1023] }.leaseInbox = .load 2 0 :: [.load 2 1023]
      ∧ { s with leaseInbox := [.stop 2] }.leaseInbox = .stop 2 :: [] := by decide

/-- Counters at 1 and at 2, and a STOPPED one. -/
theorem witness_LeaseCountsAndExpires :
    let s := { table with
      counters := (table.counters.set 1 { count := 1, running := true }).set 5 { count := 2, running := true } }
    s.resetLow = false ∧ (s.counter 1).running = true ∧ (s.counter 1).count ≤ 1 ∧ ¬ (s.counter 5).count ≤ 1
      ∧ (s.counter 0).running = false := by decide

/-! ### Hypotheses met: copies, lines, lookups -/

/-- A unit that is COPYING and one that is READY. -/
theorem witness_FrameStartTaken :
    copying.resetLow = false ∧ isCopying copying = true ∧ { table with snapState := .ready }.snapState = .ready := by decide

theorem witness_CopyStarts :
    let s := { table with snapState := .waiting }
    s.resetLow = false ∧ (s.snapState = .waiting ∧ s.copyEndDue = false ∧ s.committedWork = false
        ∧ (s.scanList (otherList s.showing)).pinCount = 0) ∧ ¬ table.snapState = .waiting := by decide

theorem witness_CopyCompletes :
    copying.resetLow = false ∧ copying.snapState = .copying { visible := [0, 1, 3], panel := { width := 100, height := 90 } } :=
  ⟨rfl, rfl⟩

def entry (i : RegionId) (g : Geometry) (o : Opacity) (t : Touch) : Entry :=
  { id := i, owner := 1, band := .ordinary, geometry := g, source := source, opacity := o, touch := t }

def list : ScanList :=
  { tag := 9, panel := { width := 100, height := 90 }, pinCount := 0
    entries := [entry 1 { x := 0, y := 0, width := 60, height := 10 } .keyed .accepts,
      entry 2 { x := 20, y := 0, width := 60, height := 10 } .keyed .absorbs,
      entry 3 { x := 40, y := 0, width := 10, height := 10 } .solid .accepts] }

def line0 : Line := buildLine list 0

/-- Line 0 with the unit READY, and with the unit WAITING and a build in flight. -/
theorem witness_LineStartTaken :
    table.resetLow = false ∧ table.lineCounter = 0 ∧ { table with snapState := .ready }.snapState = .ready
      ∧ { table with builder := .building 3 .a }.builder ≠ .idle := by decide

/-- A part of a region report, and a client report, within their ranges. -/
theorem witness_FormatsHold :
    let c : ClientReport :=
      { target := 15, state := .active, terms := terms .elevated 64 1023, owned := 64, leaseRemaining := 1023, moveCount := 8
        parkedEntry := true }
    (∃ p, partValid p .ordinary (solidPart 0 0)) ∧ c.owned ≤ 64 ∧ c.leaseRemaining ≤ 1023 ∧ c.moveCount ≤ 8
      ∧ (∀ t, c.terms = some t → t.quota ≤ 64 ∧ t.period ≤ 1023) :=
  ⟨⟨{ width := 100, height := 90 }, by decide, by decide, by decide⟩, by decide, by decide, by decide,
    fun t h => by cases h; decide⟩

/-- The port sending the first of one and of two lines, and an IDLE port. -/
theorem witness_BuildCompletes :
    let s := { table with listA := list, builder := .building 0 .a }
    let sending := { s with
      spanQueue := [line0, line0], spanPort := .sending { item := lineHeadOf line0, sent := 0, later := line0.spans.flatMap spanItems } }
    s.resetLow = false ∧ s.builder = .building 0 .a ∧ s.spanPort = .idle ∧ PortHolds s
      ∧ sending.spanQueue = [line0, line0] ∧ PortHolds sending
      ∧ PortHolds { sending with spanQueue := [line0] } ∧ sending.spanPort ≠ .idle :=
  ⟨rfl, rfl, rfl, rfl, rfl, ⟨by decide, line0, [line0], [], rfl, rfl⟩, ⟨by decide, line0, [], [], rfl, rfl⟩, by simp⟩

/-- An item of three words: the first word and the last, with and without an item after it. -/
theorem witness_SpanWordTaken :
    let p : SpanPlace := { item := .span { startX := 0, length := 8, content := none }, sent := 0, later := [] }
    table.resetLow = false ∧ { table with spanPort := .sending p }.spanPort = (if false then .aborting p else .sending p)
      ∧ p.sent + 1 < (itemWords p.item).length ∧ { p with sent := 2 }.sent + 1 = (itemWords p.item).length
      ∧ { table with spanPort := .aborting { p with sent := 2, later := [.lineAbort 3 9] } }.spanPort
          = (if true then .aborting { p with sent := 2, later := [.lineAbort 3 9] } else .idle)
      ∧ table.spanPort = .idle := by decide

/-- Region 1 over region 2 over region 3: pixel 45 has a KEYED owner and an OPAQUE underlay below another KEYED entry, pixel
30 a BACKGROUND underlay, pixel 99 no owner. -/
theorem witness_LinesCoverTheRow :
    list.entries = [] ++ entry 1 { x := 0, y := 0, width := 60, height := 10 } .keyed .accepts :: list.entries.tail
      ∧ (pixelAt list.entries 45 0).underlay = some (list.entries[2]?) ∧ (pixelAt list.entries 30 0).underlay = some none
      ∧ (∀ e ∈ list.entries, e.covers 99 0 = false) := by decide

/-- A list of 17 one-pixel columns two pixels apart: 33 spans on a panel 33 wide, one more than 32. -/
def columns : ScanList :=
  { tag := 9, panel := { width := 33, height := 16 }, pinCount := 0
    entries := (List.finRange 17).map fun i =>
      entry (i.castLE (by decide)) { x := 2 * i.val, y := 0, width := 1, height := 16 } .solid .accepts }

theorem witness_OverflowLinesCut :
    (fullRuns columns 0).length = 33 ∧ ((fullRuns columns 0).filter protectedRun).length ≤ 4
      ∧ (fullRuns list 0).length ≤ 32 ∧ 0 < columns.panel.height := by decide

theorem witness_LookupPortBytes :
    table.resetLow = false ∧ table.lkSel = true ∧ State.reset.lkSel = false
      ∧ { table with pointBytes := [1, 2, 3] }.pointBytes.length < 4
      ∧ { table with pointBytes := [1, 2, 3, 4] }.pointBytes = [1, 2, 3, 4]
      ∧ (lookupAnswerBytes (lookupAnswer { touchId := 5, x := 1, y := 2, captureFrame := 3, captureLine := 4 } list))[17]?
          = some 2
      ∧ table.lookupAnswers = [] := by decide

theorem witness_LookupTakenAndCompleted :
    let p : Point := { touchId := 5, x := 1, y := 2, captureFrame := 3, captureLine := 4 }
    table.resetLow = false ∧ { table with points := [p] }.points = p :: [] ∧ table.lookup = .idle ∧ table.lookupAnswers.length < 4
      ∧ { table with lookup := .looking p .a }.lookup = .looking p .a ∧ table.points = [] := by decide

theorem witness_LookupFindsOwner :
    99 < list.panel.width ∧ 89 < list.panel.height ∧ list.panel.width ≤ 100
      ∧ (∀ e ∈ list.entries, e.covers 99 89 = false)
      ∧ list.entries = list.entries.take 1 ++ list.entries.getD 1 (entry 0 (rect 0 0) .solid .absorbs) :: list.entries.drop 2
      ∧ (∀ f ∈ list.entries.take 1, f.covers 70 0 = false)
      ∧ (list.entries.getD 1 (entry 0 (rect 0 0) .solid .absorbs)).covers 70 0 = true := by decide

/-! ### Hypotheses met: the invariants, in the small table during a copy -/

theorem witness_QueueBoundsKept :
    let s := { copying with requests := [msg 6 1 []], answers := [refused], answerRead := 2, pending := [.frameStart] }
    QueueBounds s ∧ step s = .next (after .frameStart { s with pending := [] }) := by
  refine ⟨⟨by decide, by decide, .inl rfl, by decide, by decide, by decide, by decide, by decide, ?_, by decide, by decide,
    by decide⟩, rfl⟩
  intro h
  exact absurd rfl h

/-- The next state which the invariants below are kept into. -/
theorem witness_step : step copying = .next (after .copyComplete { copying with pending := [] }) := rfl

theorem witness_EngineAtRestKept : EngineAtRest copying :=
  { notWorking := by decide, stalledFull := fun _ _ h => (by cases h), noCommittedWork := by decide, parkedWhen := by decide
    closeWaits := fun _ _ h => (by cases h), applicationDue := by decide, copyNotDue := by decide }

theorem witness_CommittedFixedWhileCopying :
    EngineAtRest copying ∧ BandListsHold copying ∧ isCopying copying = true ∧ (∀ level, Instr.create ≠ .deviceReset level)
      ∧ exec .create copying = .next (after .create copying) :=
  ⟨witness_EngineAtRestKept, bands_hold _ rfl rfl, by decide, (fun _ h => by cases h), rfl⟩

theorem witness_OnlyAppliedWorkCommits :
    let s := asking table (msg 3 1 [1])
    BandListsHold s ∧ exec .retire s = .next (after .retire s) ∧ after .retire s ≠ s :=
  ⟨bands_hold _ rfl rfl, rfl, by decide⟩

theorem witness_BandListsKept : BandListsHold copying := bands_hold _ rfl rfl

theorem witness_PinsKept :
    let p : Point := { touchId := 5, x := 1, y := 2, captureFrame := 3, captureLine := 4 }
    let s := { copying with lookup := .looking p .a, listA := { list with pinCount := 1 } }
    PinsHold s ∧ s.lookup = .looking p .a ∧ exec .copyComplete s = .next (after .copyComplete s)
      ∧ step s = .next (after .copyComplete { s with pending := [] }) := by
  refine ⟨⟨(fun h => by cases h), ?_, by decide⟩, rfl, rfl, rfl⟩
  intro p n h
  cases h
  decide

theorem witness_SupervisorKept : SupervisorHolds copying := by
  refine ⟨by decide, by decide, by decide, by decide, (fun p h => by cases h), ?_, (fun _ h => by cases h)⟩
  intro tag h
  change ParkedEntry.close 0 tag ∈ [ParkedEntry.publish 3 7, .close 4 8] at h
  simp at h

/-- In the small table client 1 alone has staged parts. -/
theorem staged_owner : ∀ i k, isStagedOf k (table.region i) = true → k = 1 := by decide

/-- In the small table clients 0 and 1 alone have RESERVED records. -/
theorem reserved_owner : ∀ i k, isReservedOf k (table.region i) = true → k = 0 ∨ k = 1 := by decide

/-- In the small table clients 0, 1 and 2 alone own regions. -/
theorem region_owner (i : RegionId) (k : ClientId) (h : regionOwner (table.region i) = some k) : k = 0 ∨ k = 1 ∨ k = 2 := by
  have all : ∀ i, (regionOwner (table.region i)).all fun k => decide (k = 0 ∨ k = 1 ∨ k = 2) := by decide
  simpa [h] using all i

theorem region_eq {s : State} (r : s.regions = table.regions) (i : RegionId) : s.region i = table.region i := by
  unfold State.region
  rw [r]

/-- Ownership, in a state with the regions of the small table. -/
theorem ownership_holds {s : State} (r : s.regions = table.regions) (counts : ∀ k, (s.client k).owned = ownedRecords s k)
    (states : (s.client 0).state = .active ∧ (s.client 1).state = .active ∧ (s.client 2).state = .lapsed)
    (held : ∀ k parks, heldClose s = some (k, parks) → k ≠ 0 ∧ k ≠ 1) : OwnershipHolds s :=
  { counts := counts
    closedOwnsNone := by
      intro i k h
      rw [region_eq r] at h
      rcases region_owner i k h with rfl | rfl | rfl <;> simp [states]
    reservedOpen := by
      intro i k h
      rw [region_eq r] at h
      rcases reserved_owner i k h with rfl | rfl <;> simp [states]
    heldNone := by
      intro k parks h i
      rw [region_eq r, Bool.eq_false_iff]
      intro q
      rcases reserved_owner i k q with e | e
      · exact (held k parks h).1 e
      · exact (held k parks h).2 e }

/-- In the small table the creation orders of each client are 1, 2, 3 and so on. -/
theorem table_orders : (∀ i r, table.region i = .reserved r →
      1 ≤ r.order ∧ r.order ≤ ((List.finRange 64).filter fun j => isReservedOf r.owner (table.region j)).length)
    ∧ ∀ i j r q, table.region i = .reserved r → table.region j = .reserved q → r.owner = q.owner → r.order = q.order →
      i = j := by
  constructor
  · intro i r h
    have all : ∀ i, (match table.region i with
        | .reserved r => decide (1 ≤ r.order
            ∧ r.order ≤ ((List.finRange 64).filter fun j => isReservedOf r.owner (table.region j)).length)
        | _ => true) = true := by decide
    simpa [h] using all i
  · intro i j r q hi hj o n
    have only : ∀ i, (match table.region i with
        | .reserved r => decide (i = 1 ∧ r.owner = 1 ∧ r.order = 1 ∨ i = 2 ∧ r.owner = 1 ∧ r.order = 2
            ∨ i = 6 ∧ r.owner = 0 ∧ r.order = 1)
        | _ => true) = true := by decide
    have a := only i
    have b := only j
    rw [hi] at a
    rw [hj] at b
    simp only [decide_eq_true_eq] at a b
    rcases a with ⟨rfl, a1, a2⟩ | ⟨rfl, a1, a2⟩ | ⟨rfl, a1, a2⟩ <;>
      rcases b with ⟨rfl, b1, b2⟩ | ⟨rfl, b1, b2⟩ | ⟨rfl, b1, b2⟩ <;> simp_all

/-- Staging, in the small table during a copy. -/
theorem witness_staging : StagingHolds copying :=
  { stagedOpen := fun i k h => by obtain rfl := staged_owner i k h; decide
    orders := table_orders.1
    distinct := table_orders.2
    terms := by decide
    moves := by decide
    flag := by decide
    publishing := by decide
    closing := by decide
    heldOpen := fun _ _ h => by cases h
    heldDone := fun _ _ h => by cases h }

theorem witness_RecordsKept : EngineAtRest copying ∧ RecordsHold copying :=
  ⟨witness_EngineAtRestKept,
    { parked := witness_parked
      ownership := ownership_holds rfl (by decide) (by decide) (fun _ _ h => by cases h)
      staging := witness_staging }⟩

/-- The small table while a close of client 3 waits on its CANCELLED answer, with the Answer Queue full (R32, R82). -/
def holding : State :=
  { copying with
    clients := clients.set 3 { clients[3] with parkedEntry := false }
    parked := [.close 4 8], answers := List.replicate 16 refused, pending := [.answerRead], answerRead := 2
    engine := .stalled (replyTo 6 { client := 3, tag := 7 } .cancelled .close .none) (.closeTail 3 9 true) }

/-- A close that waits, with its target PUBLISHING; the read of the last word places the answer it waits on. -/
theorem witness_RecordsKept_held :
    EngineAtRest holding ∧ RecordsHold holding ∧ heldClose holding = some (3, true)
      ∧ step holding = .next (after .answerRead { holding with pending := [] }) :=
  ⟨{ notWorking := by decide, stalledFull := fun _ _ _ => by decide, noCommittedWork := by decide, parkedWhen := by decide
     closeWaits := fun k parks h => by cases h; decide
     applicationDue := by decide, copyNotDue := by decide },
   { parked :=
      { onePerClient := by decide
        clearLast := by intro tag; change ParkedEntry.clearAll tag ∉ ([] : List ParkedEntry); simp
        publishing := by intro k tag h; change ParkedEntry.publish k tag ∈ [ParkedEntry.close 4 8] at h; simp at h
        closing := by
          intro k tag h
          change ParkedEntry.close k tag ∈ [ParkedEntry.close 4 8] at h
          obtain ⟨rfl, rfl⟩ : k = 4 ∧ tag = 8 := by simpa using h
          decide
        heldTarget := by
          intro k parks h
          cases h
          refine ⟨by decide, fun tag h => ?_⟩
          change ParkedEntry.clearAll tag ∈ [ParkedEntry.close 4 8] at h
          simp at h }
     ownership := ownership_holds rfl (by decide) (by decide) (fun k parks h => by cases h; decide)
     staging :=
      { stagedOpen := fun i k h => by obtain rfl := staged_owner i k h; decide
        orders := table_orders.1
        distinct := table_orders.2
        terms := by decide
        moves := by decide
        flag := by decide
        publishing := by decide
        closing := by decide
        heldOpen := fun k parks h => by cases h; decide
        heldDone := fun k parks h => by cases h; decide } },
   rfl, rfl⟩

theorem witness_GuardedKept : GuardedLimitHolds copying ∧ GuardedDisjoint copying := by
  refine ⟨by unfold GuardedLimitHolds; decide, ?_⟩
  intro i j ij g h gi hj gb hb
  have only : ∀ i, isLive (copying.region i) = true → regionBand (copying.region i) = some .guarded → i = 3 := by decide
  have a := only i (by rw [gi]; rfl) (by rw [gi]; simp [regionBand, gb])
  have b := only j (by rw [hj]; rfl) (by rw [hj]; simp [regionBand, hb])
  exact absurd (a.trans b.symm) ij

theorem witness_ClientLimitsKept : ClientLimitsHold copying := by
  refine ⟨?_, by decide, by decide, by decide, by decide, (fun k p h => by cases h), by decide⟩
  intro k t h
  have all : ∀ k, (copying.client k).terms.all fun t =>
      decide (1 ≤ t.quota ∧ t.quota ≤ 64 ∧ t.period ≤ 1023 ∧ (copying.client k).owned ≤ t.quota) := by decide
  simpa [h] using all k

/-- With client 1's reload claim waiting. -/
theorem witness_LeasesKept :
    let s := { copying with leaseInbox := [.claim 1] }
    EngineAtRest s ∧ RecordsHold s ∧ SupervisorHolds s ∧ LeasesHold s := by
  obtain ⟨p, ⟨o1, o2, o3, o4⟩, ⟨g1, g2, g3, g4, g5, g6, g7, g8, g9, g10⟩⟩ := witness_RecordsKept.2
  obtain ⟨p1, p2, p3, p4, p5⟩ := p
  obtain ⟨v1, v2, v3, v4, -, v6, v7⟩ := witness_SupervisorKept
  refine ⟨{ witness_EngineAtRestKept with }, ⟨⟨p1, p2, p3, p4, p5⟩, ⟨o1, o2, o3, o4⟩, ⟨g1, g2, g3, g4, g5, g6, g7, g8, g9, g10⟩⟩,
    ⟨v1, v2, v3, v4, fun p h => ?_, v6, v7⟩,
    { running := by decide, stopped := by decide, lapsing := by decide, pending := ?_, claims := ?_ }⟩
  · change LeaseMsg.load 0 p ∈ [LeaseMsg.claim 1] at h
    simp at h
  · intro k h
    change k ∈ ([] : List ClientId) at h
    cases h
  · intro m h
    exact ⟨1, by simpa using h⟩

theorem witness_live_valid :
    ∀ i g, copying.region i = .live g → g.committed.geometry.valid { width := 100, height := 90 } = true := by
  intro i g h
  have all : ∀ i, (match copying.region i with
      | .live g => g.committed.geometry.valid { width := 100, height := 90 }
      | _ => true) = true := by decide
  simpa [h] using all i

theorem witness_PartsValidKept : PartsValid copying := by
  have live : ∀ i, (match copying.region i with
      | .free => true
      | .reserved g => g.staged.geometry.valid copying.panel && g.staged.source.valid
          && g.staged.appearance.valid g.band
      | .live g => g.committed.geometry.valid copying.panel && g.committed.source.valid
          && g.committed.appearance.valid g.band
          && g.staged.all fun st => st.part.geometry.valid copying.panel && st.part.source.valid
            && st.part.appearance.valid g.band) = true := by decide
  intro i
  have h := live i
  cases e : copying.region i with
  | free => trivial
  | reserved g =>
    simp only [e, Bool.and_eq_true] at h
    exact ⟨h.1.1, h.1.2, h.2⟩
  | live g =>
    simp only [e, Bool.and_eq_true] at h
    refine ⟨⟨h.1.1.1, h.1.1.2, h.1.2⟩, fun st hs => ?_⟩
    have q := h.2
    simp only [hs, Option.all_some, Bool.and_eq_true] at q
    exact ⟨q.1.1, q.1.2, q.2⟩

/-- A scan list with a GUARDED entry over an ORDINARY one. -/
def guardedList : ScanList :=
  { tag := 9, panel := { width := 100, height := 90 }, pinCount := 0
    entries := [{ entry 3 (rect 20 20) .solid .accepts with band := .guarded },
      entry 1 { x := 0, y := 0, width := 60, height := 40 } .keyed .accepts] }

theorem empty_list_holds : ListHolds emptyScanList :=
  { panel := by decide, ids := by decide, stacked := by decide, valid := by decide, few := by decide, solid := by decide
    apart := by decide }

theorem witness_list : ListHolds guardedList ∧ 25 < guardedList.panel.height :=
  ⟨{ panel := by decide, ids := by decide, stacked := by decide, valid := by decide, few := by decide, solid := by decide
     apart := by decide }, by decide⟩

theorem witness_ScanListsKept :
    let s := { copying with
      listA := guardedList, listB := { emptyScanList with tag := 9, panel := { width := 100, height := 90 } } }
    EngineAtRest s ∧ BandListsHold s ∧ GuardedLimitHolds s ∧ GuardedDisjoint s ∧ PartsValid s ∧ ScanListsHold s
      ∧ step s = .next (after .copyComplete { s with pending := [] }) := by
  refine ⟨{ witness_EngineAtRestKept with }, bands_hold _ rfl rfl, witness_GuardedKept.1, witness_GuardedKept.2,
    witness_PartsValidKept, ⟨?_, by decide, fun _ i g h => witness_live_valid i g h⟩, rfl⟩
  intro n
  cases n
  · exact witness_list.1
  · exact { panel := by decide, ids := by decide, stacked := by decide, valid := by decide, few := by decide
            solid := by decide, apart := by decide }

theorem witness_SpanPathKept :
    let s := { table with
      listA := list, builder := .building 0 .a, spanQueue := [line0]
      spanPort := .sending { item := lineHeadOf line0, sent := 1, later := line0.spans.flatMap spanItems }
      pending := [.spanWordAccepted] }
    PortHolds s ∧ BuilderHolds s ∧ step s = .next (after .spanWordAccepted { s with pending := [] }) := by
  refine ⟨⟨by decide, line0, [], [], rfl, rfl⟩, ?_, rfl⟩
  intro n l h
  cases h
  decide

/-! ### One command each, with the outcome the spec gives -/

/-- R104: the first FRAME_START begins frame 1. -/
theorem test_frame_start : (after .frameStart State.reset).frameCounter = 1 := by decide

/-- R104: after 65535 comes 0. -/
theorem test_frame_start_wraps : (after .frameStart { table with frameCounter := 65535 }).frameCounter = 0 := by decide

/-- R115 and R117: a READY list is discarded. -/
theorem test_snapshot_frame_start :
    (after .snapshotFrameStart { table with snapState := .ready, listB := list }).listB.entries = [] := by decide

/-- R171: a read of an empty queue returns 0 and says so. -/
theorem test_answer_read_empty :
    (after .answerRead State.reset).rqData = some 0 ∧ (after .answerRead State.reset).lastReadEmpty = true := by decide

/-- R170: the last word of an answer removes it. -/
theorem test_answer_read_last : (after .answerRead { table with answers := [refused], answerRead := 2 }).answers = [] := by
  decide

/-- R185: with nothing waiting the second status word is 16, the queue room. -/
theorem test_status_second_word : (after .statusRead (after .statusRead State.reset)).rqData = some 16 := by decide

/-- R174: a bit at 1 clears its flag and no other. -/
theorem test_event_flag_clear :
    (after (.eventFlagClear 0x0001) { table with flags := { noFlags with snapshotLate := true, leaseLapse := true } }).flags
      = { noFlags with leaseLapse := true } := by decide

/-- R168: the abandon bit empties the assembly. -/
theorem test_assembly_abandon :
    (after (.assemblyAbandon 0x8000) { table with assembly := { words := [0x0C03], length := 3 } }).assembly.words = [] := by
  decide

/-- R177: enabling a flag already SET raises IRQ. -/
theorem test_enable_raises_irq :
    irq (after (.enableWrite 0x0008) { table with flags := { noFlags with leaseLapse := true } }) = true := by decide

/-- R165: length field 0 is a message of one word. -/
theorem test_one_word_message : (after (.requestWordWrite 0x0600) State.reset).requests = [[0x0600]] := by decide

/-- R79: the answer to a one-word message has two words. -/
theorem test_malformed :
    (after .malformedMessage (asking table [0x0601])).answers.map answerWords = [[0x0602, 0x0001]] := by decide

/-- R55: the lowest-numbered FREE record, 7, in the answer. -/
theorem test_create : (after .create (requests table 1 1 createWords)).answers.map answerWords
    = [[0x0104, 0x8000, 0x1007, 0x0007]] := by decide

/-- R54: NO_PANEL comes first. -/
theorem test_create_no_panel :
    (after .create (requests { table with panel := { width := 0, height := 0 } } 1 1 createWords)).answers.map answerWords
      = [[0x0103, 0x800E, 0x1007]] := by decide

/-- R8, R58: the later RESERVED region moves up. -/
theorem test_retire_reserved : (after .retire (requests table 3 1 [1])).region 2 = reservedOf 1 .ordinary 50 0 1 := by decide

/-- R48, R60: a move above a freed record is dead. -/
theorem test_discard_kills_moves :
    (after .discard (requests { table with clients := clients.set 3 { clients[3] with
      state := .active, moves := [{ subject := 0, placement := .below 1, dead := false }] } } 5 1 [])).client 3 =
      { clients[3] with state := .active, moves := [{ subject := 0, placement := .below 1, dead := true }] } := by decide

/-- R67 to R72: region 5 retired, 1 and 2 inserted with 2 on top, 0 moved above 4, all in frame 10. -/
theorem test_publish :
    (after .publish (requests table 6 1 [])).bands.ordinary = [2, 1, 0, 4]
      ∧ (after .publish (requests table 6 1 [])).answers.map answerWords = [[0x0605, 0x8000, 0x1007, 0x8100, 10]] := by decide

/-- R66: regions 3 and 6 overlap. -/
theorem test_publish_overlap :
    (after .publish (requests table 6 0 [])).answers.map answerWords = [[0x0604, 0x800F, 0x0007, 0x0306]] := by decide

/-- R36: lease remaining 5 after the reload, quota 6, owned 5, one move. -/
theorem test_query_client :
    (after (.queryClient .apart) (requests { table with counters := table.counters.set 1 { count := 1, running := true } }
      9 1 [1])).answers.map (fun a => (a.reply.code, match a.reply.fields with
        | .clientReport r => (r.leaseRemaining, r.owned, r.moveCount)
        | _ => (0, 0, 0))) = [(.ok, 5, 5, 1)] := by decide

/-- R33: a close at once frees every region of its target. -/
theorem test_close : ownedRecords (after .closeClient (requests table 12 0 [1])) 1 = 0 := by decide

/-- R31, R92: after a close no counter of its target is left for a FRAME_START. -/
theorem test_close_stops_lease :
    let s := { table with counters := table.counters.set 1 { count := 1, running := true } }
    (after .leaseFrameStart s).flags.leaseLapse = true
      ∧ (after .leaseFrameStart (after .closeClient (requests s 12 0 [1]))).flags.leaseLapse = false := by decide

/-- R31, R32: a decrement to 0 taken within the close raises LEASE_LAPSE; its notice is discarded, and the parked publish is
answered CANCELLED with cause CLOSE. -/
theorem test_close_after_decrement :
    let t := after (.closeClient .frameFirst)
      (requests { copying with counters := copying.counters.set 3 { count := 1, running := true } } 12 0 [3])
    t.flags.leaseLapse = true ∧ t.lapsePending = [] ∧ (t.client 3).state = .closing
      ∧ t.answers.map answerWords = [[0x0603, 0x8212, 0x3007]] := by decide

/-- R90: a decrement to 0 taken within the clear raises LEASE_LAPSE, and the clear empties the set again. -/
theorem test_clear_after_decrement :
    let t := after (.clearAll .frameFirst)
      (asking { table with counters := table.counters.set 1 { count := 1, running := true } } (msg 13 0 []))
    t.flags.leaseLapse = true ∧ t.lapsePending = [] := by decide

/-- R90, R103: a clear leaves every counter STOPPED and the Lapse Pending Set empty. -/
theorem test_clear_stops_leases :
    let t := after .clearAll (asking table (msg 13 0 []))
    (t.counter 1).running = false ∧ (after .leaseFrameStart t).lapsePending = [] := by decide

/-- R29, R93: the counter of a client opened with period 7 runs from the answer on; a FRAME_START taken before the load passes
it by. -/
theorem test_open_loads (race : LeaseRace) :
    (after (.openClient race) (asking table (msg 11 0 [9, 1, 7]))).counter 9 = { count := 7, running := true } := by
  cases race <;> decide

/-- R32: the cancelled publish is answered to its own requester. -/
theorem test_close_cancels :
    (after .closeClient (requests copying 12 0 [3])).answers.map answerWords = [[0x0603, 0x8212, 0x3007]] := by decide

/-- R98: a lapse during a copy cancels the parked publish. -/
theorem test_lapse_notice :
    (after .lapseNotice { copying with lapsePending := [3] }).parked = [.close 4 8]
      ∧ ((after .lapseNotice { copying with lapsePending := [3] }).client 3).state = .lapsed := by decide

/-- R94: a counter at 1 stops at this decrement, its client joins the set, and LEASE_LAPSE is set. -/
theorem test_lease_expiry :
    let t := after .leaseFrameStart { table with counters := table.counters.set 1 { count := 1, running := true } }
    t.lapsePending = [1] ∧ t.counter 1 = { count := 0, running := false } ∧ t.flags.leaseLapse = true := by decide

/-- R95, the table: with lease period 1 a claim taken before a FRAME_START does not keep that decrement from 0 (log 25). -/
theorem test_claim_period_one :
    let s := { table with
      clients := clients.set 1 { clients[1] with terms := terms .ordinary 6 1 }
      counters := table.counters.set 1 { count := 1, running := true }, leaseInbox := [.claim 1] }
    (after .reloadClaim s).counter 1 = { count := 1, running := true }
      ∧ (after .leaseFrameStart (after .reloadClaim s)).lapsePending = [1] := by decide

/-- R106: while RESET is low no FRAME_START is taken; it is taken again after the reset. -/
theorem test_reset_low :
    (after .frameStart (after (.deviceReset .low) table)).frameCounter = 0
      ∧ (after .frameStart (after (.deviceReset .high) (after (.deviceReset .low) table))).frameCounter = 1 := by decide

/-- R82, R170: the read that makes room places the held answer. -/
theorem test_held_placed :
    let t := after .answerRead { table with
      answers := List.replicate 16 refused, answerRead := 2, engine := .stalled { refused with kind := 7 } .finish }
    t.engine = .free ∧ t.answers.length = 16 ∧ t.answers.getLast? = some { refused with kind := 7 } := by decide

/-- R84: unit WAITING in frame 9, a FRAME_START between two entries of a copy-end application: frames 9 and 10. -/
theorem test_frame_between_entries :
    let due := { copying with snapState := .waiting, copyEndDue := true, parked := [.close 4 8, .clearAll 9] }
    ((after .copyEndApplication (after .snapshotFrameStart (after .copyEndApplication due))).answers.map (·.reply.fields))
      = [.effective 9, .effective 10] := by decide

/-- R164: a read of REQUEST returns 0, a read of ENABLE the mask; an edge without a transaction drives nothing. -/
theorem test_window_reads :
    (after (.answerWindowWrite .requestRead) table).rqData = some 0
      ∧ (after (.answerWindowWrite .enableRead) (after (.enableWrite 0x0F3F) table)).rqData = some 0x033F
      ∧ (after (.answerWindowWrite .noTransaction) (after .statusRead table)).rqData = none := by decide

/-- R119, R120: client 2 is LAPSED, so region 63 is left out. -/
theorem test_copy :
    ((after .copyComplete (after .copyStart { table with snapState := .waiting })).listB.entries.map (·.id)) = [3, 0, 4, 5] := by
  decide

/-- R121: the taking of a CLOSE_CLIENT up to its parking does not alter what the copy writes: regions 0, 4 and 5 are the
CLOSING client's (log 24). -/
theorem test_close_during_copy :
    let t := after .closeClient (requests copying 12 0 [1])
    (t.client 1).state = .closing ∧ (after .copyComplete t).listB.entries.map (·.id) = [3, 0, 4, 5] := by decide

/-- R123: line 0 with the unit WAITING sets SNAPSHOT_LATE. -/
theorem test_line_start_late : (after .lineStart { table with snapState := .waiting }).flags.snapshotLate = true := by decide

/-- R132, R136: the spans of line 0 of the small list, and a line of 33 spans cut to 32. -/
theorem test_line_spans :
    line0.spans.map (fun sp => (sp.startX, sp.length)) = [(0, 40), (40, 10), (50, 10), (60, 20), (80, 20)]
      ∧ (buildLine columns 0).spans.length = 32 := by decide

/-- R183: the words of a BACKGROUND span of 8 pixels at 3, and of a LINE_HEAD with the overflow mark. -/
theorem test_span_words :
    itemWords (.span { startX := 3, length := 8, content := none }) = [0x20008003, 0, 0]
      ∧ itemWords (.lineHead 100 612 32 true) = [0x18200064, 612] := by decide

/-- R151: the fifth byte completes the point with its stamp. -/
theorem test_point :
    (after (.pointByteWrite 0x2C) { table with pointBytes := [0x05, 0x01, 0x90, 0x01], frameCounter := 7 }).points =
      [{ touchId := 5, x := 400, y := 300, captureFrame := 7, captureLine := 0 }] := by decide

/-- R157, R158: the KEYED accepting region is hit, the absorbing one absorbs. -/
theorem test_lookup :
    lookupResult list 70 5 = .absorbed 2 1 ∧ lookupResult list 100 5 = .outside ∧ lookupResult list 99 5 = .background := by
  decide

/-- R149, R162: an empty queue reads as 255, and LK_DO carries it while LK_SEL is high. -/
theorem test_lookup_empty : (after .lookupAnswerRead table).lkByte = some 255 ∧ lkDo State.reset = none ∧ lkDo table = some 255 := by decide

end Sys2Proof.Tests
end

section
/-! PROOF. A LINE_START: one lemma for each stage of what is done with a line, as the one update of the state it makes, then
the statement (R105, R122, R123, R127, R128, R140). -/

namespace Sys2Proof.Machine

/-- A build in flight leaves LINE_DROPPED set; without one the flag keeps its value (R140). -/
theorem abandonBuild_eq (s : State) :
    abandonBuild s = { s with
      flags := { s.flags with lineDropped := s.flags.lineDropped || decide (s.builder ≠ .idle) }
      builder := .idle } := by
  cases h : s.builder with
  | idle =>
    have unchanged : { s with builder := .idle } = s := by rw [← h]
    simp [abandonBuild, h, unchanged]
  | building n list => simp [abandonBuild, h, State.setLineDropped]

/-- The promotion request by the unit's state: READY promotes, WAITING and COPYING are late, IDLE does nothing
(R122, R123). -/
theorem requestPromotion_eq (s : State) :
    requestPromotion s = { s with
      showing := if s.snapState = .ready then otherList s.showing else s.showing
      snapState := if s.snapState = .ready then .idle else s.snapState
      flags := { s.flags with
        snapshotLate := s.flags.snapshotLate || decide (s.snapState = .waiting ∨ isCopying s = true) } } := by
  cases h : s.snapState with
  | ready => simp [requestPromotion, isCopying, h, State.filling]
  | idle =>
    have unchanged : { s with snapState := .idle } = s := by rw [← h]
    simp [requestPromotion, isCopying, h, unchanged]
  | waiting => simp [requestPromotion, isCopying, h, State.setSnapshotLate]
  | copying latch => simp [requestPromotion, isCopying, h, State.setSnapshotLate]

theorem lineProduced_iff (l : ScanList) (n : Nat) :
    lineProduced l n = true ↔ ¬ (l.panel.width = 0 ∧ l.panel.height = 0) ∧ n < l.panel.height := by
  simp only [lineProduced, Panel.unconfigured, Bool.and_eq_true, Bool.not_eq_true', decide_eq_true_eq,
    decide_eq_false_iff_not]

/-- The build begins exactly for a line of a configured panel (R128). -/
theorem beginBuild_eq (n : Nat) (s : State) :
    beginBuild n s = { s with
      builder :=
        if ¬ ((s.scanList s.showing).panel.width = 0 ∧ (s.scanList s.showing).panel.height = 0)
          ∧ n < (s.scanList s.showing).panel.height then .building n s.showing else .idle } := by
  simp only [beginBuild, lineProduced_iff]

/-- The promotion of line `n`: line 0 goes through the promotion request, any other line does not (R127 step 2). -/
theorem promotionOfLine_eq (n : Nat) (s : State) :
    (if n = 0 then requestPromotion s else s) = { s with
      showing := if n = 0 ∧ s.snapState = .ready then otherList s.showing else s.showing
      snapState := if n = 0 ∧ s.snapState = .ready then .idle else s.snapState
      flags := { s.flags with
        snapshotLate :=
          s.flags.snapshotLate || decide (n = 0 ∧ (s.snapState = .waiting ∨ isCopying s = true)) } } := by
  by_cases first : n = 0
  · simp [first, requestPromotion_eq]
  · simp [first]

/-- Settles O40: the numbering, the abandoned build, the promotion and the new build, one after the other. -/
theorem lineStartTaken : Obligations.LineStartTaken := by
  intro s high n promoted late showing p
  calc exec .lineStart s
      = .next (takeLine s) := whileHigh_high high
    _ = _ := by
      rw [takeLine, abandonBuild_eq, promotionOfLine_eq, beginBuild_eq]
      rfl

end Sys2Proof.Machine
end

section
/-! PROOF. A lookup reads the owner of the pixel at its point: the owner as a search, the result from the owner, then the
statement (R155 to R158, R130). -/

namespace Sys2Proof.Machine

/-- The recursion of `pixelAt` is the search for the first covering entry in list order (R130, R156). -/
theorem pixelAt_owner (entries : List Entry) (x y : Nat) :
    (pixelAt entries x y).owner = entries.find? fun e => e.covers x y := by
  induction entries with
  | nil => rfl
  | cons e rest ih =>
    by_cases covered : e.covers x y = true
    · simp [pixelAt, covered]
    · simp [pixelAt, covered, ih]

theorem pixelAt_owner_eq_none {entries : List Entry} {x y : Nat} (bare : ∀ e ∈ entries, e.covers x y = false) :
    (pixelAt entries x y).owner = none := by
  simpa [pixelAt_owner] using bare

theorem pixelAt_owner_eq_some {before after : List Entry} {e : Entry} {x y : Nat}
    (above : ∀ f ∈ before, f.covers x y = false) (covered : e.covers x y = true) :
    (pixelAt (before ++ e :: after) x y).owner = some e := by
  have noneAbove : before.find? (fun f => f.covers x y) = none := by simpa using above
  simp [pixelAt_owner, List.find?_append, noneAbove, covered]

theorem entryResult_absorbs {e : Entry} (x y : Nat) (absorbs : e.touch = .absorbs) :
    entryResult e x y = .absorbed e.id e.owner := by
  simp only [entryResult, absorbs]

theorem entryResult_accepts {e : Entry} (x y : Nat) (accepts : e.touch = .accepts) :
    entryResult e x y = .hit
      { id := e.id, owner := e.owner, localX := x - e.geometry.x, localY := y - e.geometry.y, plane := e.source.plane
        sourceColumn := sourceColumn e.geometry e.source x, sourceRow := sourceRow e.geometry e.source y } := by
  simp only [entryResult, accepts]

theorem lookupResult_off_panel {l : ScanList} {x y : Nat}
    (off : (l.panel.width = 0 ∧ l.panel.height = 0) ∨ l.panel.width ≤ x ∨ l.panel.height ≤ y) :
    lookupResult l x y = .outside := by
  simp [lookupResult, Panel.unconfigured, off]

/-- On the panel the result is the one of the pixel's owner: a lookup and the span path agree on who is at a point
(R130, R156). -/
theorem lookupResult_on_panel {l : ScanList} {x y : Nat} (inWidth : x < l.panel.width) (inHeight : y < l.panel.height) :
    lookupResult l x y =
      (pixelAt l.entries x y).owner.elim .background fun e => entryResult e x y := by
  have on : ¬ (l.panel.unconfigured ∨ l.panel.width ≤ x ∨ l.panel.height ≤ y) := by
    simp only [Panel.unconfigured, decide_eq_true_eq]
    omega
  rw [lookupResult, if_neg on, pixelAt_owner]
  simp only [Entry.covers]
  cases l.entries.find? fun e => e.geometry.covers x y <;> rfl

/-- Settles O47: off the panel at once; on it through the owner of the pixel, absent or the first covering entry. -/
theorem lookupFindsOwner : Obligations.LookupFindsOwner := by
  intro l x y
  refine ⟨lookupResult_off_panel, fun inWidth inHeight => ⟨fun bare => ?_, ?_⟩⟩
  · have owner := pixelAt_owner_eq_none bare
    exact ⟨by rw [lookupResult_on_panel inWidth inHeight, owner, Option.elim_none], owner⟩
  · intro e before after split above covered
    have owner : (pixelAt l.entries x y).owner = some e := split ▸ pixelAt_owner_eq_some above covered
    have result : lookupResult l x y = entryResult e x y := by
      rw [lookupResult_on_panel inWidth inHeight, owner, Option.elim_some]
    exact ⟨owner, fun absorbs => result.trans (entryResult_absorbs x y absorbs),
      fun accepts => result.trans (entryResult_accepts x y accepts)⟩

end Sys2Proof.Machine
end

section
/-! PROOF. A word written to REQUEST: the length its message announces, where the word and the complete message go, then
the statement (R164 to R167). -/

namespace Sys2Proof.Machine

/-- The length a first word announces, out of its five low bits (R165). -/
theorem announcedLength_eq (w : Word) :
    announcedLength w = if w.toNat % 32 = 0 then 1 else min (w.toNat % 32) 16 := by
  have field : wordField w 0 5 = w.toNat % 32 := by simp [wordField]
  simp only [announcedLength, field, Nat.min_def]

/-- The length of the message that a word joins: its own announcement as a first word, the one kept in the assembly as a
later word (R165, R166). -/
def joinedLength (w : Word) (s : State) : Nat :=
  if s.assembly.words.isEmpty then announcedLength w else s.assembly.length

theorem joinedLength_eq (w : Word) (s : State) :
    joinedLength w s =
      if s.assembly.words = [] then (if w.toNat % 32 = 0 then 1 else min (w.toNat % 32) 16) else s.assembly.length := by
  cases h : s.assembly.words with
  | nil => simp [joinedLength, h, announcedLength_eq]
  | cons first later => simp [joinedLength, h]

/-- A word that leaves its message short of its length stays in the assembly (R166). -/
theorem assembleWord_incomplete {w : Word} {s : State} {n : Nat} (joined : joinedLength w s = n)
    (short : (s.assembly.words ++ [w]).length < n) :
    assembleWord w s = { s with assembly := { words := s.assembly.words ++ [w], length := n } } := by
  subst joined
  exact if_pos short

/-- The word that makes the length empties the assembly and brings its message to admission (R166). -/
theorem assembleWord_complete {w : Word} {s : State} {n : Nat} (joined : joinedLength w s = n)
    (complete : (s.assembly.words ++ [w]).length = n) :
    assembleWord w s = admitMessage (s.assembly.words ++ [w]) { s with assembly := { words := [], length := 0 } } := by
  subst joined
  exact if_neg complete.not_lt

theorem admitMessage_room {s : State} (m : List Word) (room : s.requests.length < 16) :
    admitMessage m s = { s with requests := s.requests ++ [m] } :=
  if_pos room

theorem admitMessage_full {s : State} (m : List Word) (full : 16 ≤ s.requests.length) :
    admitMessage m s = s.setRequestOverrun :=
  if_neg (Nat.not_lt.mpr full)

/-- While RESET is high a word written to REQUEST is assembled, and the port drives no word (R164). -/
theorem exec_requestWordWrite_high {s : State} (w : Word) (high : s.resetLow = false) :
    exec (.requestWordWrite w) s = .next (assembleWord w { s with rqData := none }) :=
  whileHigh_high high

/-- Settles O3: the word leaves its message incomplete, or completes it with room in the Request Queue, or with none. -/
theorem requestWordAssembles : Obligations.RequestWordAssembles := by
  intro w s high field length words u
  have joined : joinedLength w { s with rqData := none } = length := joinedLength_eq w _
  rw [exec_requestWordWrite_high w high]
  refine ⟨fun short => ?_, fun complete room => ?_, fun complete full => ?_⟩
  · rw [assembleWord_incomplete joined short]
  · rw [assembleWord_complete joined complete]
    exact congrArg _ (admitMessage_room words room)
  · rw [assembleWord_complete joined complete]
    exact congrArg _ (admitMessage_full words full)

end Sys2Proof.Machine
end

section
/-! PROOF. IRQ: the two level conditions as statements about their queues, then the statement (R175, R177, R178). -/

namespace Sys2Proof.Machine

theorem answerAvailable_iff (s : State) : answerAvailable s = true ↔ s.answers ≠ [] := by
  simp [answerAvailable]

theorem lookupAvailable_iff (s : State) : lookupAvailable s = true ↔ s.lookupAnswers ≠ [] := by
  simp [lookupAvailable]

/-- Settles O8: each pair of a source and its enable is one disjunct, under RESET high. -/
theorem irqFollowsConditions : Obligations.IrqFollowsConditions := by
  intro s
  simp only [irq, Bool.and_eq_true, Bool.or_eq_true, Bool.not_eq_true', answerAvailable_iff, lookupAvailable_iff, or_assoc]

end Sys2Proof.Machine
end

section
/-! PROOF. What a command can do to the tables, said once for all 43 of them: the blocks beside the Request Engine keep the
tables, and the engine's pieces are made of a few kinds of staging work and, where work is applied, of committed changes. -/

namespace Sys2Proof.Machine

/-! ### The tables kept -/

/-- The tables, the Parked List, the panel configuration and the close that waits are as they were. -/
structure TablesKept (s t : State) : Prop where
  regions : t.regions = s.regions
  clients : t.clients = s.clients
  bands : t.bands = s.bands
  parked : t.parked = s.parked
  panel : t.panel = s.panel
  heldClose : heldClose t = heldClose s

theorem TablesKept.refl (s : State) : TablesKept s s := ⟨rfl, rfl, rfl, rfl, rfl, rfl⟩

theorem TablesKept.trans {s t u : State} (h : TablesKept s t) (g : TablesKept t u) : TablesKept s u :=
  ⟨g.regions.trans h.regions, g.clients.trans h.clients, g.bands.trans h.bands, g.parked.trans h.parked,
    g.panel.trans h.panel, g.heldClose.trans h.heldClose⟩

theorem TablesKept.region {s t : State} (h : TablesKept s t) (i : RegionId) : t.region i = s.region i := by
  simp only [State.region, h.regions]

theorem TablesKept.client {s t : State} (h : TablesKept s t) (k : ClientId) : t.client k = s.client k := by
  simp only [State.client, h.clients]

theorem heldClose_congr {s t : State} (h : t.engine = s.engine) : heldClose t = heldClose s := by
  unfold heldClose; rw [h]

theorem TablesKept.of_leaseFrame {s t : State} (h : leaseFrame s t) : TablesKept s t := by
  exact ⟨by rw [h], by rw [h], by rw [h], by rw [h], by rw [h], heldClose_congr (by rw [h])⟩

/-- The tables are kept, and so are the lease counters, the Lapse Pending Set and what waits for the Lease Monitor. -/
structure Inert (s t : State) : Prop extends TablesKept s t where
  counters : t.counters = s.counters
  lapsePending : t.lapsePending = s.lapsePending
  leaseInbox : t.leaseInbox = s.leaseInbox

theorem Inert.refl (s : State) : Inert s s := ⟨.refl s, rfl, rfl, rfl⟩

theorem Inert.trans {s t u : State} (h : Inert s t) (g : Inert t u) : Inert s u :=
  ⟨h.toTablesKept.trans g.toTablesKept, g.counters.trans h.counters, g.lapsePending.trans h.lapsePending,
    g.leaseInbox.trans h.leaseInbox⟩

/-- Updates of other fields are inert. -/
theorem Inert.of_fields {s t : State}
    (same : (t.regions, t.clients, t.bands, t.parked, t.panel, t.engine, t.counters, t.lapsePending, t.leaseInbox) =
      (s.regions, s.clients, s.bands, s.parked, s.panel, s.engine, s.counters, s.lapsePending, s.leaseInbox)) :
    Inert s t := by
  simp only [Prod.mk.injEq] at same
  obtain ⟨regions, clients, bands, parked, panel, engine, counters, lapsePending, leaseInbox⟩ := same
  exact ⟨⟨regions, clients, bands, parked, panel, heldClose_congr engine⟩, counters, lapsePending, leaseInbox⟩

theorem updScanList_inert (n : ListName) (f : ScanList → ScanList) (s : State) : Inert s (s.updScanList n f) := by
  rw [updScanList_frame]
  exact .of_fields rfl

theorem writeRequest_inert (w : Word) (s : State) : Inert s (writeRequest w s) := by
  unfold writeRequest assembleWord admitMessage
  dsimp only
  split_ifs <;> exact .of_fields rfl

/-- The close that waits once an answer with this rest of its piece is placed or held. -/
def waitingClose : Resume → Option (ClientId × Bool)
  | .closeTail k _ parks => some (k, parks)
  | _ => none

theorem heldClose_placeAnswer (a : Answer) (r : Resume) (s : State) : heldClose (placeAnswer a r s) = waitingClose r := by
  obtain ⟨-, p⟩ | ⟨-, p⟩ := placeAnswer_cases a r s <;> rw [p]
  · cases r with
    | application => simp only [answerPlaced]; split <;> rfl
    | _ => rfl
  · cases r <;> rfl

/-- An answer, placed or held, is inert when the close that waits after it did so before. -/
theorem placeAnswer_inert {r : Resume} {s : State} (waits : heldClose s = waitingClose r) (a : Answer) :
    Inert s (placeAnswer a r s) := by
  have held := (heldClose_placeAnswer a r s).trans waits.symm
  suffices same : ∀ u, u = placeAnswer a r s → (u.regions, u.clients, u.bands, u.parked, u.panel, u.counters,
      u.lapsePending, u.leaseInbox) = (s.regions, s.clients, s.bands, s.parked, s.panel, s.counters, s.lapsePending,
      s.leaseInbox) by
    have fields := same _ rfl
    simp only [Prod.mk.injEq] at fields
    obtain ⟨regions, clients, bands, parked, panel, counters, lapsePending, leaseInbox⟩ := fields
    exact ⟨⟨regions, clients, bands, parked, panel, held⟩, counters, lapsePending, leaseInbox⟩
  intro u e
  obtain ⟨-, p⟩ | ⟨-, p⟩ := placeAnswer_cases a r s <;> rw [e, p]
  cases r with
  | application => simp only [answerPlaced]; split <;> rfl
  | _ => rfl

theorem placeHeld_inert (s : State) : Inert s (placeHeld s) := by
  obtain ⟨a, r, e, h⟩ | ⟨-, h⟩ := placeHeld_cases s <;> rw [h]
  · exact placeAnswer_inert (by cases r <;> simp [heldClose, waitingClose, e]) a
  · exact .refl s

theorem readAnswer_inert (s : State) : Inert s (readAnswer s) := by
  have advance : Inert s (advanceAnswerRead s) := by
    unfold advanceAnswerRead
    split
    · exact .refl s
    · split
      · exact .of_fields rfl
      · next rest _ _ =>
        have drop : Inert s { s with answers := rest, answerRead := 0 } := .of_fields rfl
        exact drop.trans (placeHeld_inert _)
  exact advance.trans (.of_fields rfl)

theorem readStatus_inert (s : State) : Inert s (readStatus s) := by
  unfold readStatus
  split <;> exact .of_fields rfl

theorem leaseInbox_frame (rest : List LeaseMsg) (s : State) : leaseFrame s { s with leaseInbox := rest } := by
  cases s; rfl

theorem claimWaiting_frame (s : State) : leaseFrame s (claimWaiting s) := by
  unfold claimWaiting
  split
  · next k rest _ => exact leaseFrame_trans (leaseInbox_frame rest s) (takeLeaseMsg_frame _ (.claim k))
  · exact leaseFrame_refl s

theorem loadWaiting_frame (s : State) : leaseFrame s (loadWaiting s) := by
  unfold loadWaiting
  split
  · next k p rest _ => exact leaseFrame_trans (leaseInbox_frame rest s) (takeLeaseMsg_frame _ (.load k p))
  · exact leaseFrame_refl s

theorem stopWaiting_frame (s : State) : leaseFrame s (stopWaiting s) := by
  unfold stopWaiting
  split
  · next k rest _ => exact leaseFrame_trans (leaseInbox_frame rest s) (takeLeaseMsg_frame _ (.stop k))
  · exact leaseFrame_refl s

theorem advanceSnapshot_inert (s : State) : Inert s (advanceSnapshot s) := by
  have advance : Inert s { s with snapFrame := s.snapFrame + 1, snapState := .waiting } :=
    .of_fields rfl
  unfold advanceSnapshot
  split
  · exact advance
  · exact advance
  · exact (advance.trans (updScanList_inert _ _ _)).trans (.of_fields rfl)
  · exact advance.trans (updScanList_inert _ _ _)

theorem startCopy_inert (s : State) : Inert s (startCopy s) := by
  unfold startCopy
  split
  · exact (updScanList_inert _ _ _).trans (.of_fields rfl)
  · exact .refl s

theorem completeCopy_inert (s : State) : Inert s (completeCopy s) := by
  unfold completeCopy
  split
  · exact (updScanList_inert _ _ _).trans (.of_fields rfl)
  · exact .refl s

theorem takeLine_inert (s : State) : Inert s (takeLine s) := by
  rw [takeLine, abandonBuild_eq, promotionOfLine_eq, beginBuild_eq]
  exact .of_fields rfl

theorem beginLine_inert (s : State) : Inert s (beginLine s) := by
  unfold beginLine
  split <;> exact .of_fields rfl

theorem discardOlder_inert (s : State) : Inert s (discardOlder s) := by
  unfold discardOlder
  split <;> exact .of_fields rfl

theorem queueLine_inert (l : Line) (s : State) : Inert s (queueLine l s) := by
  have room : Inert s (if s.spanQueue.length < Config.spanQueueSize then s else discardOlder s) := by
    split
    · exact .refl s
    · exact discardOlder_inert s
  have queued := room.trans (.of_fields (t := { (if s.spanQueue.length < Config.spanQueueSize then s else discardOlder s) with
    spanQueue := (if s.spanQueue.length < Config.spanQueueSize then s else discardOlder s).spanQueue ++ [l] }) rfl)
  unfold queueLine
  dsimp only
  split
  · exact queued.trans (beginLine_inert _)
  · exact queued

theorem completeBuild_inert (s : State) : Inert s (completeBuild s) := by
  unfold completeBuild
  split
  · exact .refl s
  · refine Inert.trans ?_ (queueLine_inert _ _)
    split <;> exact .of_fields rfl

theorem acceptWord_inert (s : State) : Inert s (acceptWord s) := by
  unfold acceptWord
  split
  · exact .refl s
  · split
    · exact .of_fields rfl
    · exact (Inert.of_fields (s := s) (t := { s with spanQueue := s.spanQueue.tail }) rfl).trans
        (beginLine_inert _)
  · split
    · exact .of_fields rfl
    · exact beginLine_inert s

theorem writePointByte_inert (b : Byte) (s : State) : Inert s (writePointByte b s) := by
  unfold writePointByte completePoint
  dsimp only
  split_ifs <;> exact .of_fields rfl

theorem readLookupByte_inert (s : State) : Inert s (readLookupByte s) := by
  unfold readLookupByte advanceLookupRead
  split_ifs
  · split
    · exact .of_fields rfl
    · split_ifs <;> exact .of_fields rfl
  · exact .refl s

theorem takePoint_inert (s : State) : Inert s (takePoint s) := by
  unfold takePoint
  split
  · split
    · exact (updScanList_inert _ _ _).trans (.of_fields rfl)
    · exact .refl s
  · exact .refl s

theorem completeLookup_inert (s : State) : Inert s (completeLookup s) := by
  unfold completeLookup
  split
  · exact .refl s
  · exact (updScanList_inert _ _ _).trans (.of_fields rfl)

/-- An effect taken only while RESET is high keeps a reflexive relation that its function keeps. -/
theorem whileHigh_rel {R : State → State → Prop} {f : State → State} {s t : State} (refl : R s s) (effect : R s (f s))
    (h : whileHigh f s = .next t) : R s t := by
  obtain ⟨-, e⟩ | ⟨-, e⟩ := whileHigh_cases h <;> rw [e]
  · exact refl
  · exact effect

/-- The commands of the Lease Monitor change the Lease Monitor alone. -/
theorem exec_leaseFrame {c : Instr} {s t : State} (monitor : c.agent = .leaseMonitor) (h : exec c s = .next t) :
    leaseFrame s t := by
  have high {f : State → State} (effect : leaseFrame s (f s)) (g : whileHigh f s = .next t) : leaseFrame s t :=
    whileHigh_rel (leaseFrame_refl s) effect g
  cases c with
  | reloadClaim => exact high (claimWaiting_frame s) h
  | leaseLoad => exact high (loadWaiting_frame s) h
  | leaseStop => exact high (stopWaiting_frame s) h
  | leaseFrameStart => exact high (countDown_frame s) h
  | leaseExpiry => exact high (expireCounters_frame s) h
  | _ => cases monitor

/-- The commands of the blocks beside the Request Engine and the Lease Monitor, and not a reset, are inert. -/
theorem exec_inert {c : Instr} {s t : State} (engine : c.agent ≠ .requestEngine) (monitor : c.agent ≠ .leaseMonitor)
    (reset : c.agent ≠ .resetInput) (h : exec c s = .next t) : Inert s t := by
  have high {f : State → State} (effect : Inert s (f s)) (g : whileHigh f s = .next t) : Inert s t :=
    whileHigh_rel (.refl s) effect g
  cases c with
  | deviceReset => exact absurd rfl reset
  | malformedMessage | create | edit | retire | restack | discard | publish | renew | queryRegion | queryClient | resume
  | openClient | closeClient | clearAll | setPanel | heldAnswerPlacement | lapseNotice | copyEndApplication =>
    exact absurd rfl engine
  | reloadClaim | leaseLoad | leaseStop | leaseFrameStart | leaseExpiry => exact absurd rfl monitor
  | requestWordWrite w => exact high (writeRequest_inert w s) h
  | answerRead => exact high (readAnswer_inert s) h
  | answerWindowWrite access | eventFlagClear w | assemblyAbandon w | enableWrite w | frameStart =>
    exact high (.of_fields rfl) h
  | statusRead => exact high (readStatus_inert s) h
  | snapshotFrameStart => exact high (advanceSnapshot_inert s) h
  | copyStart => exact high (startCopy_inert s) h
  | copyComplete => exact high (completeCopy_inert s) h
  | lineStart => exact high (takeLine_inert s) h
  | buildComplete => exact high (completeBuild_inert s) h
  | spanWordAccepted => exact high (acceptWord_inert s) h
  | pointByteWrite b => exact high (writePointByte_inert b s) h
  | lkSelFall level => cases level <;> cases h <;> exact .of_fields rfl
  | lookupAnswerRead => exact high (readLookupByte_inert s) h
  | lookupTake => exact high (takePoint_inert s) h
  | lookupComplete => exact high (completeLookup_inert s) h

/-- The commands of the blocks beside the Request Engine, and not a reset, keep the tables. -/
theorem exec_tables {c : Instr} {s t : State} (engine : c.agent ≠ .requestEngine) (reset : c.agent ≠ .resetInput)
    (h : exec c s = .next t) : TablesKept s t := by
  by_cases monitor : c.agent = .leaseMonitor
  · exact .of_leaseFrame (exec_leaseFrame monitor h)
  · exact (exec_inert engine monitor reset h).toTablesKept

end Sys2Proof.Machine
end

section
/-! PROOF. The work of the engine on the Region Table, the band lists and the panel configuration: every command is a chain of
staging effects and, only where `mayCommit` allows it, committed changes. -/

namespace Sys2Proof.Machine

/-! ### The kinds of effect -/

/-- What a piece of work does to the Region Table, the band lists and the panel short of a committed change. -/
inductive Staging : State → State → Prop
  /-- The three are as they were. -/
  | keep {s t : State} (regions : t.regions = s.regions) (bands : t.bands = s.bands) (panel : t.panel = s.panel) : Staging s t
  /-- SET_PANEL with no region in use (R108, R109). -/
  | panel {s t : State} (unused : ∀ i, s.region i = .free) (regions : t.regions = s.regions) (bands : t.bands = s.bands)
      (valid : t.panel.valid = true) : Staging s t
  /-- A CREATE whose checks pass (R54, R55). -/
  | reserve {s : State} {m : List Word} {k : ClientId} {i : RegionId} (checks : createChecks m k s = .ok i) :
      Staging s (reserveRecord i k (createPart m) s)
  /-- An EDIT whose checks pass (R56, R57). -/
  | edit {s : State} {m : List Word} {k : ClientId} {i : RegionId} (checks : editChecks m k s = .ok i) :
      Staging s (s.setRegion i (editRegion (editGroups m) (s.region i)))
  /-- The retire mark of a RETIRE (R59). -/
  | mark (s : State) (i : RegionId) : Staging s (s.setRegion i (markRetire (s.region i)))
  /-- The freeing of one RESERVED record (R58). -/
  | release {s : State} {i : RegionId} {g : ReservedRegion} (reserved : s.region i = .reserved g) :
      Staging s (freeRecords [i] s)
  /-- The discarding of a client's staging (R60). -/
  | discard (k : ClientId) (s : State) : Staging s (discardStaging k s)

/-- The three committed changes. -/
inductive Commit : State → State → Prop
  /-- A publish whose guard check passes (R67 to R71). -/
  | publish {k : ClientId} {s : State} (apart : firstOverlap (guardSet k s) = none) : Commit s (publishSteps k s).1
  /-- A close (R33). -/
  | close (k : ClientId) (s : State) : Commit s (applyClose k s)
  /-- A clear (R90). -/
  | clear (s : State) : Commit s (applyClear s)

/-- A chain of effects, in which committed changes occur only if `may` holds. -/
def Work (may : Prop) : State → State → Prop :=
  Relation.ReflTransGen fun s t => Staging s t ∨ (may ∧ Commit s t)

section

variable {may : Prop} {s t u : State}

theorem Work.refl (s : State) : Work may s s := Relation.ReflTransGen.refl

theorem Work.trans (h : Work may s t) (g : Work may t u) : Work may s u := Relation.ReflTransGen.trans h g

theorem Work.stage (h : Staging s t) : Work may s t := .single (.inl h)

theorem Work.commit (allowed : may) (h : Commit s t) : Work may s t := .single (.inr ⟨allowed, h⟩)

theorem Work.keep (regions : t.regions = s.regions) (bands : t.bands = s.bands) (panel : t.panel = s.panel) :
    Work may s t := .stage (.keep regions bands panel)

theorem Work.of_tables (h : TablesKept s t) : Work may s t := .keep h.regions h.bands h.panel

/-- What every effect keeps, a chain keeps. -/
theorem Work.keeps {P : State → Prop} (stage : ∀ s t, Staging s t → P s → P t)
    (commit : may → ∀ s t, Commit s t → P s → P t) (h : Work may s t) (p : P s) : P t := by
  induction h with
  | refl => exact p
  | tail _ effect ih =>
    obtain effect | ⟨allowed, effect⟩ := effect
    · exact stage _ _ effect ih
    · exact commit allowed _ _ effect ih

/-- A chain in which nothing is committed keeps what staging keeps. -/
theorem Work.keeps_of_staging {P : State → Prop} (none : ¬ may) (stage : ∀ s t, Staging s t → P s → P t)
    (h : Work may s t) (p : P s) : P t :=
  h.keeps stage (fun allowed => absurd allowed none) p

/-! ### The engine's shared operations -/

theorem placeAnswer_work (a : Answer) (r : Resume) (s : State) : Work may s (placeAnswer a r s) := by
  obtain ⟨-, p⟩ | ⟨-, p⟩ := placeAnswer_cases a r s <;> rw [p]
  · cases r with
    | application => simp only [answerPlaced]; split <;> exact .keep rfl rfl rfl
    | _ => exact .keep rfl rfl rfl
  · exact .keep rfl rfl rfl

theorem answerRequest_work (kind : RequestKind) (h : Header) (r : Reply) (s : State) :
    Work may s (answerRequest kind h r s) := placeAnswer_work _ _ s

theorem applyPublish_work (allowed : may) (k : ClientId) (s : State) : Work may s (applyPublish k s).1 := by
  unfold applyPublish
  split
  · exact .keep (by simp) (by simp) (by simp)
  · next apart => exact .commit allowed (.publish apart)

theorem applyEntry_work (allowed : may) (e : ParkedEntry) (s : State) : Work may s (applyEntry e s).1 := by
  cases e with
  | publish k tag => exact applyPublish_work allowed k s
  | close k tag => exact .commit allowed (.close k s)
  | clearAll tag => exact .commit allowed (.clear s)

theorem applyNow_work (allowed : may) (e : ParkedEntry) (s : State) : Work may s (applyNow e s) := by
  have raised : Work may s { s with committedWork := true } := .keep rfl rfl rfl
  rw [applyNow_eq]
  refine (raised.trans (applyEntry_work allowed e _)).trans (Work.trans ?_ (placeAnswer_work _ _ _))
  exact .keep rfl rfl rfl

theorem applyNext_work (allowed : may) (s : State) : Work may s (applyNext s) := by
  obtain ⟨-, e⟩ | ⟨e, rest, -, eq⟩ := applyNext_cases s
  · rw [e]; exact .keep rfl rfl rfl
  · have popped : Work may s { s with parked := rest } := .keep rfl rfl rfl
    rw [eq]
    exact (popped.trans (applyEntry_work allowed e _)).trans (placeAnswer_work _ _ _)

theorem closeTail_work {parks : Bool} (allowed : parks = false → may) (k : ClientId) (tag : Tag) (s : State) :
    Work may s (closeTail k tag parks s) := by
  unfold closeTail
  dsimp only
  have closing : Work may s ((askLease [.stop k] s).updClient k fun c => { c with state := .closing }) :=
    .keep (by simp) (by simp) (by simp)
  cases parks with
  | true =>
    refine closing.trans (.keep ?_ ?_ ?_) <;> simp
  | false => exact closing.trans (applyNow_work (allowed rfl) _ _)

theorem goOn_work (allowed : ∀ r, s.engine = .working r → r = .application ∨ (∃ k tag, r = .closeTail k tag false) → may) :
    Work may s (goOn s) := by
  obtain ⟨-, e⟩ | ⟨k, tag, parks, w, e⟩ | ⟨w, e⟩ | ⟨-, e⟩ := goOn_cases s <;> rw [e]
  · exact .keep (by simp) (by simp) (by simp)
  · exact closeTail_work (fun p => allowed _ w (.inr ⟨k, tag, by rw [p]⟩)) k tag s
  · exact applyNext_work (allowed _ w (.inl rfl)) s
  · exact .refl s

/-! ### The requests -/

theorem takeRequest_work {kind : Option RequestKind} {m : List Word} (h : takeRequest kind s = some (m, t)) :
    Work may s t ∧ t.snapState = s.snapState := by
  obtain ⟨-, -, -, rest, -, -, rfl⟩ := takeRequest_eq_some.mp h
  exact ⟨.keep (by simp) (by simp) (by simp), by simp⟩

theorem leaseFrame_work (h : leaseFrame s t) : Work may s t := .of_tables (.of_leaseFrame h)

/-- A request does what its own kind's work does, on a state of the same Snapshot Unit. -/
theorem runRacing_work {race : LeaseRace} {kind : RequestKind} {own : List Word → Header → State → State}
    (work : ∀ m h u, u.snapState = s.snapState → Work may u (own m h u)) : Work may s (runRacing race kind own s) := by
  obtain e | ⟨m, t, take, outcome⟩ := runRacing_cases race kind own s
  · rw [e]; exact .refl s
  obtain ⟨begun, snap⟩ := takeRequest_work (may := may) take
  have framed := begun.trans (leaseFrame_work (framedBy_frame race t))
  have claimed (k : ClientId) : Work may s (handLease (.claim k) (framedBy race t)) :=
    framed.trans (.keep (by simp) (by simp) (by simp))
  obtain ⟨c, -, e⟩ | ⟨-, ⟨c, -, e⟩ | ⟨-, e⟩⟩ := outcome <;> rw [e]
  · exact framed.trans (answerRequest_work _ _ _ _)
  · exact (claimed _).trans (answerRequest_work _ _ _ _)
  · refine (claimed _).trans (work _ _ _ ?_)
    rw [handLease_snapState, framedBy_frame race t]
    exact snap

theorem ownCreate_work (m : List Word) (h : Header) (s : State) : Work may s (ownCreate m h s) := by
  unfold ownCreate
  split
  · exact answerRequest_work _ _ _ _
  · next checks => exact (Work.stage (.reserve checks)).trans (answerRequest_work _ _ _ _)

theorem ownEdit_work (m : List Word) (h : Header) (s : State) : Work may s (ownEdit m h s) := by
  unfold ownEdit
  split
  · exact answerRequest_work _ _ _ _
  · next checks => exact (Work.stage (.edit checks)).trans (answerRequest_work _ _ _ _)

theorem ownRetire_work (m : List Word) (h : Header) (s : State) : Work may s (ownRetire m h s) := by
  unfold ownRetire
  split
  · exact answerRequest_work _ _ _ _
  next i _ =>
  split_ifs with owner live
  · exact answerRequest_work _ _ _ _
  · exact (Work.stage (.mark s i)).trans (answerRequest_work _ _ _ _)
  · cases r : s.region i with
    | free => simp [r, regionOwner] at owner
    | live g => simp [r, isLive] at live
    | reserved g =>
      refine (Work.stage (.release r)).trans (Work.trans ?_ (answerRequest_work _ _ _ _))
      exact .keep (by simp [retireReserved]) (by simp [retireReserved]) (by simp [retireReserved])

theorem ownRestack_work (m : List Word) (h : Header) (s : State) : Work may s (ownRestack m h s) := by
  unfold ownRestack
  split
  · exact answerRequest_work _ _ _ _
  · exact Work.trans (.keep (by simp) (by simp) (by simp)) (answerRequest_work _ _ _ _)

theorem ownPublish_work (allowed : isCopying s = false → may) (m : List Word) (h : Header) :
    Work may s (ownPublish m h s) := by
  unfold ownPublish
  split_ifs with empty copying
  · exact answerRequest_work _ _ _ _
  · exact .keep (by simp [parkPublish]) (by simp [parkPublish]) (by simp [parkPublish])
  · exact applyNow_work (allowed (by simpa using copying)) _ s

theorem ownQueryRegion_work (m : List Word) (h : Header) (s : State) : Work may s (ownQueryRegion m h s) := by
  unfold ownQueryRegion
  split <;> exact answerRequest_work _ _ _ _

theorem reloadWithin_frame (race : QueryRace) (k : ClientId) (s : State) : leaseFrame s (reloadWithin race k s) := by
  have reload (t : State) : leaseFrame t (settleLease (handLease (.claim k) t)) :=
    leaseFrame_trans (leaseInbox_frame (t.leaseInbox ++ [.claim k]) t) (settleLease_frame _)
  cases race with
  | apart => exact reload s
  | beforeReload => exact leaseFrame_trans (countDown_frame s) (reload _)
  | afterReload => exact leaseFrame_trans (reload s) (countDown_frame _)

theorem ownQueryClient_work (m : List Word) (h : Header) (s : State) : Work may s (ownQueryClient m h s) := by
  unfold ownQueryClient
  split
  · exact answerRequest_work _ _ _ _
  · split_ifs <;> exact answerRequest_work _ _ _ _

theorem runQueryClient_work (race : QueryRace) (s : State) : Work may s (runQueryClient race s) := by
  unfold runQueryClient
  split
  · exact .refl s
  next m t take =>
  have begun := (takeRequest_work (may := may) take).1
  dsimp only
  split
  · refine begun.trans (Work.trans ?_ (answerRequest_work _ _ _ _))
    split_ifs
    · exact .refl t
    · exact leaseFrame_work (countDown_frame t)
  · exact (begun.trans (leaseFrame_work (reloadWithin_frame race _ t))).trans (ownQueryClient_work _ _ _)

theorem ownResume_work (m : List Word) (h : Header) (s : State) : Work may s (ownResume m h s) := by
  unfold ownResume
  split_ifs
  · exact Work.trans (.keep (by simp) (by simp) (by simp)) (answerRequest_work _ _ _ _)
  · exact answerRequest_work _ _ _ _

theorem ownOpenClient_work (m : List Word) (h : Header) (s : State) : Work may s (ownOpenClient m h s) := by
  unfold ownOpenClient
  split
  · exact answerRequest_work _ _ _ _
  · split_ifs
    · exact Work.trans (.keep (by simp) (by simp) (by simp)) (answerRequest_work _ _ _ _)
    · exact answerRequest_work _ _ _ _

theorem takeClose_work (allowed : isCopying s = false → may) (k : ClientId) (tag : Tag) : Work may s (takeClose k tag s) := by
  have discarded : Work may s (discardStaging k s) := .stage (.discard k s)
  unfold takeClose
  dsimp only
  split
  · next ptag _ =>
    have removed : Work may (discardStaging k s) (removePublish k (discardStaging k s)) :=
      .keep (by simp) (by simp) (by simp)
    refine ((discarded.trans removed).trans (placeAnswer_work _ _ _)).trans (goOn_work fun r w c => ?_)
    obtain ⟨-, p⟩ | ⟨-, p⟩ := placeAnswer_cases (cancelledAnswer k ptag .close) (.closeTail k tag (isCopying s))
      (removePublish k (discardStaging k s))
    · rw [p] at w
      cases w
      obtain c | ⟨_, _, c⟩ := c
      · cases c
      · injection c with _ _ copying
        exact allowed copying
    · rw [p] at w; cases w
  · exact discarded.trans (closeTail_work allowed k tag _)

theorem ownCloseClient_work (allowed : isCopying s = false → may) (m : List Word) (h : Header) :
    Work may s (ownCloseClient m h s) := by
  unfold ownCloseClient
  split
  · exact answerRequest_work _ _ _ _
  · split
    · exact answerRequest_work _ _ _ _
    · exact answerRequest_work _ _ _ _
    all_goals exact takeClose_work allowed _ _

theorem ownClearAll_work (allowed : isCopying s = false → may) (m : List Word) (h : Header) :
    Work may s (ownClearAll m h s) := by
  unfold ownClearAll
  split_ifs with copying
  · exact .keep rfl rfl rfl
  · exact applyNow_work (allowed (by simpa using copying)) _ s

theorem ownSetPanel_work (m : List Word) (h : Header) (s : State) : Work may s (ownSetPanel m h s) := by
  unfold ownSetPanel
  dsimp only
  split_ifs with bad unused
  · exact answerRequest_work _ _ _ _
  · have free (i : RegionId) : s.region i = .free := by
      have none : i ∉ s.idsWhere fun r => !isFree r := by simp [List.isEmpty_iff.mp unused]
      cases r : s.region i <;> simp [r, isFree] at none ⊢
    refine Work.trans (.stage (.panel free (t := { s with panel := ⟨messageNumber m 3, messageNumber m 4⟩ }) rfl rfl ?_))
      (answerRequest_work _ _ _ _)
    simpa using bad
  · exact answerRequest_work _ _ _ _

/-! ### The engine's other work -/

theorem takeLowestNotice_work (s : State) : Work may s (takeLowestNotice s) := by
  unfold takeLowestNotice
  split_ifs
  · split
    · next k _ _ =>
      have taken : Work may s { { settleLease s with engine := .working .finish } with
          lapsePending := (settleLease s).lapsePending.filter fun j => decide (j ≠ k) } :=
        .keep (by simp) (by simp) (by simp)
      have lapsed (t : State) : Work may t (lapseClient k t) := by
        unfold lapseClient
        dsimp only
        have removed : Work may t (if (t.client k).parkedEntry then removePublish k t else t) := by
          split_ifs
          · exact .keep (by simp) (by simp) (by simp)
          · exact .refl t
        have discarded := removed.trans (.stage (.discard k _))
        split
        · exact discarded.trans (Work.trans (.keep (by simp) (by simp) (by simp)) (placeAnswer_work _ _ _))
        · exact discarded.trans (.keep (by simp) (by simp) (by simp))
      unfold takeNotice
      dsimp only
      split
      all_goals refine taken.trans ?_
      · exact lapsed _
      · exact lapsed _
      all_goals exact .keep rfl rfl rfl
    · exact .refl s
  · exact .refl s

theorem takeApplication_work (allowed : s.copyEndDue = true ∨ s.engine = .working .application → may) :
    Work may s (takeApplication s) := by
  unfold takeApplication
  split_ifs with taken working
  · have settled : Work may s { settleLease s with engine := .working .application } := .keep (by simp) (by simp) (by simp)
    exact settled.trans (applyNext_work (allowed (.inl taken.2)) _)
  · exact applyNext_work (allowed (.inr working)) s
  · exact .refl s

/-- When a command may commit: a request not taken during a copy, or the rest of a copy-end application or of a close that
does not park. -/
def mayCommit (c : Instr) (s : State) : Prop :=
  match c with
  | .publish | .closeClient _ | .clearAll _ => isCopying s = false
  | .copyEndApplication => s.copyEndDue = true ∨ s.engine = .working .application
  | .heldAnswerPlacement => heldApplication s = true ∨ ∃ k, heldClose s = some (k, false)
  | _ => False

theorem heldAnswerPlacement_work (s : State) :
    Work (heldApplication s = true ∨ ∃ k, heldClose s = some (k, false)) s (goOn (placeHeld s)) := by
  refine (Work.of_tables (placeHeld_inert s).toTablesKept).trans (goOn_work fun r w c => ?_)
  have close := (placeHeld_inert s).heldClose
  obtain rfl | ⟨k, tag, rfl⟩ := c
  · left
    obtain ⟨a, r, e, h⟩ | ⟨-, h⟩ := placeHeld_cases s
    · rw [h] at w
      obtain ⟨-, p⟩ | ⟨-, p⟩ := placeAnswer_cases a r s
      · cases r <;> simp [p, answerPlaced, finishPiece] at w
        simp [heldApplication, e]
      · simp [p] at w
    · rw [h] at w
      simp [heldApplication, w]
  · right
    exact ⟨k, by rw [← close]; simp [heldClose, w]⟩

end

/-- Every command but a reset is a chain of effects on the tables, with committed changes only where it may commit. -/
theorem exec_work {c : Instr} {s t : State} (reset : ∀ level, c ≠ .deviceReset level) (h : exec c s = .next t) :
    Work (mayCommit c s) s t := by
  have outside (engine : c.agent ≠ .requestEngine) (other : c.agent ≠ .resetInput) : Work (mayCommit c s) s t :=
    .of_tables (exec_tables engine other h)
  have high {f : State → State} (effect : Work (mayCommit c s) s (f s)) (g : whileHigh f s = .next t) :
      Work (mayCommit c s) s t := whileHigh_rel (.refl s) effect g
  have copying {u : State} (snap : u.snapState = s.snapState) : isCopying u = isCopying s := by
    simp only [isCopying, snap]
  cases c with
  | deviceReset level => exact absurd rfl (reset level)
  | requestWordWrite | answerRead | answerWindowWrite | statusRead | eventFlagClear | assemblyAbandon | enableWrite
  | reloadClaim | leaseLoad | leaseStop | leaseFrameStart | leaseExpiry | frameStart | snapshotFrameStart | copyStart
  | copyComplete | lineStart | buildComplete | spanWordAccepted | pointByteWrite | lkSelFall | lookupAnswerRead | lookupTake
  | lookupComplete => exact outside nofun nofun
  | malformedMessage =>
    refine high ?_ h
    unfold runMalformed
    split
    · exact .refl s
    · next take => exact (takeRequest_work take).1.trans (placeAnswer_work _ _ _)
  | create => exact high (runRacing_work fun m h u _ => ownCreate_work m h u) h
  | edit => exact high (runRacing_work fun m h u _ => ownEdit_work m h u) h
  | retire => exact high (runRacing_work fun m h u _ => ownRetire_work m h u) h
  | restack => exact high (runRacing_work fun m h u _ => ownRestack_work m h u) h
  | discard =>
    exact high (runRacing_work fun m h u _ => (Work.stage (.discard h.client u)).trans (answerRequest_work _ _ _ _)) h
  | publish => exact high (runRacing_work fun m h u snap => ownPublish_work (fun c => (copying snap).symm.trans c) m h) h
  | renew => exact high (runRacing_work fun m h u _ => answerRequest_work _ _ _ _) h
  | queryRegion => exact high (runRacing_work fun m h u _ => ownQueryRegion_work m h u) h
  | queryClient race => exact high (runQueryClient_work race s) h
  | resume race => exact high (runRacing_work fun m h u _ => ownResume_work m h u) h
  | openClient race => exact high (runRacing_work fun m h u _ => ownOpenClient_work m h u) h
  | closeClient race => exact high (runRacing_work fun m h u snap => ownCloseClient_work (fun c => (copying snap).symm.trans c) m h) h
  | clearAll race => exact high (runRacing_work fun m h u snap => ownClearAll_work (fun c => (copying snap).symm.trans c) m h) h
  | setPanel => exact high (runRacing_work fun m h u _ => ownSetPanel_work m h u) h
  | heldAnswerPlacement => exact high (f := fun s => goOn (placeHeld s)) (heldAnswerPlacement_work s) h
  | lapseNotice => exact high (takeLowestNotice_work s) h
  | copyEndApplication => exact high (takeApplication_work id) h

end Sys2Proof.Machine
end

section
/-! PROOF. The operations on single records and on band lists, each said once: what a record keeps, what the checks of CREATE
and EDIT let through, where a move puts its subject, and what an applied publish leaves of each record. -/

namespace Sys2Proof.Machine

/-! ### Records -/

section

variable (g : ReservedRegion) (q : LiveRegion) (k : ClientId)

@[simp] theorem regionOwner_free : regionOwner .free = none := rfl
@[simp] theorem regionOwner_reserved : regionOwner (.reserved g) = some g.owner := rfl
@[simp] theorem regionOwner_live : regionOwner (.live q) = some q.owner := rfl
@[simp] theorem regionBand_free : regionBand .free = none := rfl
@[simp] theorem regionBand_reserved : regionBand (.reserved g) = some g.band := rfl
@[simp] theorem regionBand_live : regionBand (.live q) = some q.band := rfl
@[simp] theorem isLive_free : isLive .free = false := rfl
@[simp] theorem isLive_reserved : isLive (.reserved g) = false := rfl
@[simp] theorem isLive_live : isLive (.live q) = true := rfl
@[simp] theorem isReservedOf_free : isReservedOf k .free = false := rfl
@[simp] theorem isReservedOf_reserved : isReservedOf k (.reserved g) = decide (g.owner = k) := rfl
@[simp] theorem isReservedOf_live : isReservedOf k (.live q) = false := rfl
@[simp] theorem isLiveOf_free : isLiveOf k .free = false := rfl
@[simp] theorem isLiveOf_reserved : isLiveOf k (.reserved g) = false := rfl
@[simp] theorem isLiveOf_live : isLiveOf k (.live q) = decide (q.owner = k) := rfl
@[simp] theorem isStagedOf_free : isStagedOf k .free = false := rfl
@[simp] theorem isStagedOf_reserved : isStagedOf k (.reserved g) = false := rfl
@[simp] theorem isStagedOf_live : isStagedOf k (.live q) = (decide (q.owner = k) && q.staged.isSome) := rfl

end

@[simp] theorem committedRecord_closeUpOrder (s : State) (ids : List RegionId) (r : Region) :
    committedRecord (closeUpOrder s ids r) = committedRecord r := by
  cases r <;> rfl

@[simp] theorem regionOwner_closeUpOrder (s : State) (ids : List RegionId) (r : Region) :
    regionOwner (closeUpOrder s ids r) = regionOwner r := by
  cases r <;> rfl

@[simp] theorem regionBand_closeUpOrder (s : State) (ids : List RegionId) (r : Region) :
    regionBand (closeUpOrder s ids r) = regionBand r := by
  cases r <;> rfl

@[simp] theorem isLive_closeUpOrder (s : State) (ids : List RegionId) (r : Region) :
    isLive (closeUpOrder s ids r) = isLive r := by
  cases r <;> rfl

@[simp] theorem isReservedOf_closeUpOrder (k : ClientId) (s : State) (ids : List RegionId) (r : Region) :
    isReservedOf k (closeUpOrder s ids r) = isReservedOf k r := by
  cases r <;> rfl

@[simp] theorem isStagedOf_closeUpOrder (k : ClientId) (s : State) (ids : List RegionId) (r : Region) :
    isStagedOf k (closeUpOrder s ids r) = isStagedOf k r := by
  cases r <;> rfl

@[simp] theorem isLiveOf_closeUpOrder (k : ClientId) (s : State) (ids : List RegionId) (r : Region) :
    isLiveOf k (closeUpOrder s ids r) = isLiveOf k r := by
  cases r <;> rfl

/-- Whether a record is RESERVED for the owner of `g` with a lower creation order (R8). -/
def precedes (g : ReservedRegion) : Region → Bool
  | .reserved h => decide (h.owner = g.owner ∧ h.order < g.order)
  | _ => false

theorem closeUpOrder_reserved (s : State) (ids : List RegionId) (g : ReservedRegion) :
    closeUpOrder s ids (.reserved g) =
      .reserved { g with order := g.order - (ids.filter fun j => precedes g (s.region j)).length } := rfl

/-- With no RESERVED record among the freed ones no creation order changes (R8). -/
theorem closeUpOrder_of_live {s : State} {ids : List RegionId} (live : ∀ j ∈ ids, isLive (s.region j) = true) (r : Region) :
    closeUpOrder s ids r = r := by
  cases r with
  | free => rfl
  | live g => rfl
  | reserved g =>
    have none : (ids.filter fun j => precedes g (s.region j)) = [] := by
      refine List.filter_eq_nil_iff.mpr fun j hj => ?_
      cases hr : s.region j with
      | live h => simp [precedes]
      | free => simp [precedes]
      | reserved h => simpa [hr, isLive] using live j hj
    simp [closeUpOrder_reserved, none]

@[simp] theorem committedRecord_dropStaged (k : ClientId) (r : Region) :
    committedRecord (dropStaged k r) = committedRecord r := by
  cases r with
  | live g => simp only [dropStaged]; split_ifs <;> rfl
  | _ => rfl

@[simp] theorem regionOwner_dropStaged (k : ClientId) (r : Region) : regionOwner (dropStaged k r) = regionOwner r := by
  cases r with
  | live g => simp only [dropStaged]; split_ifs <;> rfl
  | _ => rfl

@[simp] theorem regionBand_dropStaged (k : ClientId) (r : Region) : regionBand (dropStaged k r) = regionBand r := by
  cases r with
  | live g => simp only [dropStaged]; split_ifs <;> rfl
  | _ => rfl

@[simp] theorem isReservedOf_dropStaged (j k : ClientId) (r : Region) : isReservedOf j (dropStaged k r) = isReservedOf j r := by
  cases r with
  | live g => simp only [dropStaged]; split_ifs <;> rfl
  | _ => rfl

@[simp] theorem committedRecord_editRegion (g : Groups) (r : Region) : committedRecord (editRegion g r) = committedRecord r := by
  cases r <;> rfl

@[simp] theorem regionOwner_editRegion (g : Groups) (r : Region) : regionOwner (editRegion g r) = regionOwner r := by
  cases r <;> rfl

@[simp] theorem regionBand_editRegion (g : Groups) (r : Region) : regionBand (editRegion g r) = regionBand r := by
  cases r <;> rfl

@[simp] theorem isReservedOf_editRegion (k : ClientId) (g : Groups) (r : Region) :
    isReservedOf k (editRegion g r) = isReservedOf k r := by
  cases r <;> rfl

@[simp] theorem committedRecord_markRetire (r : Region) : committedRecord (markRetire r) = committedRecord r := by
  cases r <;> rfl

@[simp] theorem regionOwner_markRetire (r : Region) : regionOwner (markRetire r) = regionOwner r := by
  cases r <;> rfl

@[simp] theorem regionBand_markRetire (r : Region) : regionBand (markRetire r) = regionBand r := by
  cases r <;> rfl

@[simp] theorem isReservedOf_markRetire (k : ClientId) (r : Region) : isReservedOf k (markRetire r) = isReservedOf k r := by
  cases r <;> rfl

theorem isReservedOf_iff {k : ClientId} {r : Region} : isReservedOf k r = true ↔ ∃ g, r = .reserved g ∧ g.owner = k := by
  cases r <;> simp [isReservedOf]

theorem isLiveOf_iff {k : ClientId} {r : Region} : isLiveOf k r = true ↔ ∃ g, r = .live g ∧ g.owner = k := by
  cases r <;> simp [isLiveOf]

theorem isRetiringOf_iff {k : ClientId} {r : Region} :
    isRetiringOf k r = true ↔ ∃ g st, r = .live g ∧ g.owner = k ∧ g.staged = some st ∧ st.retire = true := by
  cases r <;> simp [isRetiringOf, Option.any_eq_true]

/-- Whether a record is LIVE, and its band if it is, stand in its committed record. -/
theorem live_of_committedRecord {r q : Region} (h : committedRecord q = committedRecord r) (b : Band) :
    (isLive q = true ∧ regionBand q = some b) ↔ (isLive r = true ∧ regionBand r = some b) := by
  cases r <;> cases q <;> simp_all [committedRecord, isLive, regionBand]

/-! ### Validation -/

/-- No group of a message fails exactly when every group it carries is valid (R6). -/
theorem failing_eq_none {g : Groups} {p : Panel} {b : Band} :
    g.failing p b = none ↔ (∀ x, g.geometry = some x → x.valid p = true) ∧ (∀ x, g.source = some x → x.valid = true)
      ∧ ∀ x, g.appearance = some x → x.valid b = true := by
  obtain ⟨geometry, source, appearance⟩ := g
  cases geometry <;> cases source <;> cases appearance <;> simp only [Groups.failing] <;> split_ifs <;> simp_all

/-- Valid groups put into a valid part leave it valid (R9). -/
theorem applyTo_valid {g : Groups} {p : Panel} {b : Band} {q : Part} (groups : g.failing p b = none) (part : partValid p b q) :
    partValid p b (g.applyTo q) := by
  obtain ⟨geometry, source, appearance⟩ := failing_eq_none.mp groups
  obtain ⟨hg, hs, ha⟩ := part
  refine ⟨?_, ?_, ?_⟩
  · cases e : g.geometry with
    | none => simpa [Groups.applyTo, e] using hg
    | some x => simpa [Groups.applyTo, e] using geometry x e
  · cases e : g.source with
    | none => simpa [Groups.applyTo, e] using hs
    | some x => simpa [Groups.applyTo, e] using source x e
  · cases e : g.appearance with
    | none => simpa [Groups.applyTo, e] using ha
    | some x => simpa [Groups.applyTo, e] using appearance x e

theorem failing_ofPart {p : Panel} {b : Band} {q : Part} : (Groups.ofPart q).failing p b = none ↔ partValid p b q := by
  simp [failing_eq_none, Groups.ofPart, partValid]

/-! ### The checks of CREATE and EDIT -/

theorem lowestFree_eq_some {s : State} {i : RegionId} (h : lowestFree s = some i) : s.region i = .free := by
  have free := List.find?_some h
  cases r : s.region i <;> simp [r, isFree] at free ⊢

/-- What a CREATE whose checks pass has passed (R54). -/
theorem createChecks_ok {m : List Word} {k : ClientId} {s : State} {i : RegionId} (h : createChecks m k s = .ok i) :
    s.panel.unconfigured = false ∧ (s.client k).owned ≠ clientQuota s k ∧ lowestFree s = some i
      ∧ (clientClass s k = .guarded → guardedCount s < 4) ∧ partValid s.panel (clientClass s k) (createPart m) := by
  unfold createChecks at h
  split at h
  · cases h
  next panel =>
  split at h
  · cases h
  next quota =>
  split at h
  · cases h
  next i' free =>
  split at h
  · cases h
  next guard =>
  split at h
  · cases h
  next valid =>
  cases h
  refine ⟨by simpa using panel, quota, free, fun c => ?_, failing_ofPart.mp valid⟩
  by_contra full
  exact guard ⟨c, by simpa using full⟩

/-- What an EDIT whose checks pass has passed (R56). -/
theorem editChecks_ok {m : List Word} {k : ClientId} {s : State} {i : RegionId} (h : editChecks m k s = .ok i) :
    regionNumber (lowNumber m 3) = some i ∧ regionOwner (s.region i) = some k ∧ retireMarked (s.region i) = false
      ∧ ∃ b, regionBand (s.region i) = some b ∧ (editGroups m).failing s.panel b = none := by
  unfold editChecks at h
  split at h
  · cases h
  next i' number =>
  split at h
  · cases h
  next b band =>
  split_ifs at h with owner marked
  split at h
  · cases h
  next valid =>
  cases h
  exact ⟨number, by simpa using owner, by simpa using marked, b, band, valid⟩

/-! ### Moves -/

theorem insertBefore_perm (r x : RegionId) (l : List RegionId) : (insertBefore r x l).Perm (x :: l) := by
  induction l with
  | nil => exact .refl _
  | cons y ys ih =>
    simp only [insertBefore]
    split_ifs
    · exact .refl _
    · exact (ih.cons y).trans (.swap x y ys)

theorem insertAfter_perm (r x : RegionId) (l : List RegionId) : (insertAfter r x l).Perm (x :: l) := by
  induction l with
  | nil => exact .refl _
  | cons y ys ih =>
    simp only [insertAfter]
    split_ifs
    · exact .swap x y ys
    · exact (ih.cons y).trans (.swap x y ys)

/-- A move rearranges the band list of its subject (R49). -/
theorem placeSubject_perm (p : Placement) {x : RegionId} {l : List RegionId} (h : x ∈ l) : (placeSubject p x l).Perm l := by
  have back := (List.perm_cons_erase h).symm
  cases p with
  | top => exact back
  | bottom => exact (List.perm_append_singleton x _).trans back
  | above r => exact (insertBefore_perm r x _).trans back
  | below r => exact (insertAfter_perm r x _).trans back

@[simp] theorem get_modify (l : Bands) (b c : Band) (f : List RegionId → List RegionId) :
    (l.modify b f).get c = if c = b then f (l.get c) else l.get c := by
  cases b <;> cases c <;> rfl

@[simp] theorem get_without (l : Bands) (ids : List RegionId) (b : Band) :
    (l.without ids).get b = (l.get b).filter fun i => decide (i ∉ ids) := by
  cases b <;> rfl

theorem bands_ext {l m : Bands} (h : ∀ b, l.get b = m.get b) : l = m := by
  have guarded := h .guarded
  have elevated := h .elevated
  have ordinary := h .ordinary
  cases l; cases m
  simp_all [Bands.get]

@[simp] theorem freeRecords_bands (ids : List RegionId) (s : State) : (freeRecords ids s).bands = s.bands.without ids := rfl

@[simp] theorem discardStaging_bands (k : ClientId) (s : State) :
    (discardStaging k s).bands = s.bands.without (s.idsWhere (isReservedOf k)) := by
  simp [discardStaging]

@[simp] theorem applyClose_bands (k : ClientId) (s : State) :
    (applyClose k s).bands = s.bands.without (s.idsWhere (isLiveOf k)) := by
  simp [applyClose]

theorem region_applyClose (k : ClientId) (s : State) (i : RegionId) :
    (applyClose k s).region i = if isLiveOf k (s.region i) then .free else s.region i := by
  have live : ∀ j ∈ s.idsWhere (isLiveOf k), isLive (s.region j) = true := fun j hj => by
    obtain ⟨g, e, -⟩ := isLiveOf_iff.mp (by simpa using hj)
    simp [e, isLive]
  simp [applyClose, region_freeRecords, closeUpOrder_of_live live]

@[simp] theorem applyClear_regions (s : State) : (applyClear s).regions = Vector.replicate 64 .free := by cases s; rfl

@[simp] theorem applyClear_bands (s : State) : (applyClear s).bands = { guarded := [], elevated := [], ordinary := [] } := by
  cases s; rfl

@[simp] theorem region_applyClear (s : State) (i : RegionId) : (applyClear s).region i = .free := by
  simp [State.region]

/-! ### The steps of a publish -/

theorem region_retireStep (k : ClientId) (s : State) (i : RegionId) :
    (retireStep k s).region i = if isRetiringOf k (s.region i) then .free else s.region i := by
  have live : ∀ j ∈ s.idsWhere (isRetiringOf k), isLive (s.region j) = true := fun j hj => by
    obtain ⟨g, st, e, -⟩ := isRetiringOf_iff.mp (by simpa using hj)
    simp [e, isLive]
  simp [retireStep, region_freeRecords, closeUpOrder_of_live live]

/-- The insertion of a record: a RESERVED one becomes LIVE (R11). -/
def insertedRecord (eff : Frame) : Region → Region
  | .reserved g => .live { owner := g.owner, band := g.band, committed := g.staged, staged := none, changed := eff }
  | r => r

theorem region_congr {s t : State} (h : t.regions = s.regions) (i : RegionId) : t.region i = s.region i := by
  simp only [State.region, h]

theorem client_congr {s t : State} (h : t.clients = s.clients) (k : ClientId) : t.client k = s.client k := by
  simp only [State.client, h]

theorem region_insertRegion (eff : Frame) (s : State) (i j : RegionId) :
    (insertRegion eff s i).region j = if j = i then insertedRecord eff (s.region j) else s.region j := by
  unfold insertRegion
  split
  · next g h =>
    refine (region_congr (s := s.setRegion i (insertedRecord eff (.reserved g))) (by simp only [insertedRecord]) j).trans ?_
    by_cases e : j = i
    · subst e; simp [h, insertedRecord]
    · simp [region_setRegion, e]
  · next h =>
    by_cases e : j = i
    · subst e
      cases r : s.region j with
      | reserved g => exact absurd r (h g)
      | free => simp [insertedRecord]
      | live g => simp [insertedRecord]
    · simp [e]

theorem region_insertionStep (ids : List RegionId) (eff : Frame) (s : State) (i : RegionId) :
    (insertionStep ids eff s).region i = if i ∈ ids then insertedRecord eff (s.region i) else s.region i := by
  induction ids generalizing s with
  | nil => rfl
  | cons j ids ih =>
    have twice (r : Region) : insertedRecord eff (insertedRecord eff r) = insertedRecord eff r := by cases r <;> rfl
    show (insertionStep ids eff (insertRegion eff s j)).region i = _
    rw [ih, region_insertRegion]
    by_cases a : i = j
    · subst a; simp [twice]
    · simp [a]

theorem mem_createdInOrder (k : ClientId) (s : State) (i : RegionId) :
    i ∈ createdInOrder k s ↔ isReservedOf k (s.region i) = true := by
  simp [createdInOrder, List.mem_insertionSort]

theorem nodup_createdInOrder (k : ClientId) (s : State) : (createdInOrder k s).Nodup :=
  (List.perm_insertionSort _ _).nodup_iff.mpr (nodup_idsWhere _ s)

/-- What an applied publish of client `k` leaves of a record, `moved` being whether a move with it as subject was applied
(R67 to R70, R17). -/
def publishedRecord (k : ClientId) (eff : Frame) (moved : Bool) : Region → Region
  | .free => .free
  | .reserved q =>
    if q.owner = k then .live { owner := k, band := q.band, committed := q.staged, staged := none, changed := eff }
    else .reserved q
  | .live q =>
    if q.owner = k then
      match q.staged with
      | some st => if st.retire then .free else .live { q with committed := st.part, staged := none, changed := eff }
      | none => .live { q with changed := if moved then eff else q.changed }
    else .live { q with changed := if moved then eff else q.changed }

/-- What becomes of a record in a publish of client `k`: FREE; not LIVE and as it was; the client's RESERVED record LIVE; its
edited LIVE record committed; a LIVE record with nothing staged by the client, stamped or not. -/
theorem publishedRecord_cases (k : ClientId) (eff : Frame) (moved : Bool) (r : Region) :
    publishedRecord k eff moved r = .free
      ∨ (publishedRecord k eff moved r = r ∧ ∀ q, r ≠ .live q)
      ∨ (∃ q, r = .reserved q ∧ q.owner = k ∧ publishedRecord k eff moved r =
          .live { owner := k, band := q.band, committed := q.staged, staged := none, changed := eff })
      ∨ (∃ q st, r = .live q ∧ q.owner = k ∧ q.staged = some st ∧ st.retire = false ∧ publishedRecord k eff moved r =
          .live { q with committed := st.part, staged := none, changed := eff })
      ∨ ∃ q f, r = .live q ∧ (q.owner = k → q.staged = none) ∧ publishedRecord k eff moved r = .live { q with changed := f } := by
  cases r with
  | free => exact .inl rfl
  | reserved q =>
    by_cases own : q.owner = k
    · exact .inr (.inr (.inl ⟨q, rfl, own, by simp [publishedRecord, own]⟩))
    · exact .inr (.inl ⟨by simp [publishedRecord, own], fun _ => nofun⟩)
  | live q =>
    by_cases own : q.owner = k
    · cases staged : q.staged with
      | none => exact .inr (.inr (.inr (.inr ⟨q, _, rfl, fun _ => staged, by simp only [publishedRecord, own, staged]; rfl⟩)))
      | some st =>
        by_cases retire : st.retire = true
        · exact .inl (by simp [publishedRecord, own, staged, retire])
        · exact .inr (.inr (.inr (.inl ⟨q, st, rfl, own, staged, by simpa using retire,
            by simp [publishedRecord, own, staged, retire]⟩)))
    · exact .inr (.inr (.inr (.inr ⟨q, _, rfl, fun e => absurd e own, by simp only [publishedRecord, own]; rfl⟩)))

/-- The state of a publish on which its moves are judged and applied: retired, edited and inserted (R67 to R69). -/
def insertedState (k : ClientId) (s : State) : State :=
  insertionStep (createdInOrder k (editStep k (retireStep k s))) (effectiveFrame s) (editStep k (retireStep k s))

theorem region_publishSteps (k : ClientId) (s : State) (i : RegionId) :
    (publishSteps k s).1.region i =
      publishedRecord k (effectiveFrame s) (decide (i ∈ (tallyMoves k (insertedState k s)).subjects)) (s.region i) := by
  have eq : (publishSteps k s).1.region i =
      (stampStep (createdInOrder k (editStep k (retireStep k s)) ++ (retireStep k s).idsWhere (isStagedOf k)
        ++ (tallyMoves k (insertedState k s)).subjects) (effectiveFrame s) (moveStep k (insertedState k s))).region i := by
    simp [publishSteps, leavePublishing, insertedState]
  have kept : (moveStep k (insertedState k s)).region i = (insertedState k s).region i := by simp [moveStep, State.region]
  have inserted : (insertedState k s).region i = _ := region_insertionStep _ _ _ i
  rw [eq, region_stampStep, kept, inserted]
  simp only [List.mem_append, mem_createdInOrder, mem_idsWhere, region_editStep, region_retireStep]
  cases r : s.region i with
  | free => simp [isRetiringOf, commitStaged, isReservedOf, isStagedOf, publishedRecord, stampRegion]
  | reserved q =>
    by_cases o : q.owner = k <;>
      simp [isRetiringOf, commitStaged, isReservedOf, isStagedOf, publishedRecord, stampRegion, insertedRecord, o]
  | live q =>
    obtain ⟨owner, band, committed, staged, changed⟩ := q
    by_cases o : owner = k
    · cases staged with
      | none =>
        by_cases moved : i ∈ (tallyMoves k (insertedState k s)).subjects <;>
          simp [isRetiringOf, commitStaged, isReservedOf, isStagedOf, publishedRecord, stampRegion, o, moved]
      | some e =>
        by_cases retire : e.retire = true <;>
          simp [isRetiringOf, commitStaged, isReservedOf, isStagedOf, publishedRecord, stampRegion, o, retire]
    · by_cases moved : i ∈ (tallyMoves k (insertedState k s)).subjects <;>
        simp [isRetiringOf, commitStaged, isReservedOf, isStagedOf, publishedRecord, stampRegion, o, moved]

end Sys2Proof.Machine
end

section
/-! PROOF. The committed table: staging leaves it alone, an applied publish, close or clear keeps the band lists, and guarded
regions stay few and apart (R16, R25, R39, R41, R66). -/

namespace Sys2Proof.Machine

/-! ### Staging and the committed table -/

/-- Freeing RESERVED records leaves the band lists, in which no RESERVED record stands (R39, R43). -/
theorem without_of_reserved {s : State} (lists : BandListsHold s) {ids : List RegionId}
    (reserved : ∀ i ∈ ids, isLive (s.region i) = false) : s.bands.without ids = s.bands := by
  refine bands_ext fun b => ?_
  rw [get_without, List.filter_eq_self]
  intro i listed
  have live := (((lists b).2 i).mp listed).1
  by_contra freed
  have out := reserved i (by simpa using freed)
  rw [live] at out
  cases out

theorem Staging.committedRecord {s t : State} (h : Staging s t) (i : RegionId) :
    committedRecord (t.region i) = committedRecord (s.region i) := by
  cases h with
  | keep regions bands panel => rw [region_congr regions]
  | panel unused regions bands valid => rw [region_congr regions]
  | reserve checks =>
    obtain ⟨-, -, lowest, -, -⟩ := createChecks_ok checks
    simp only [reserveRecord, region_updClient, region_setRegion]
    split_ifs with e
    · rw [e, lowestFree_eq_some lowest]; rfl
    · rfl
  | edit checks =>
    rw [region_setRegion]
    split_ifs with e
    · rw [e, committedRecord_editRegion]
    · rfl
  | mark j =>
    rw [region_setRegion]
    split_ifs with e
    · rw [e, committedRecord_markRetire]
    · rfl
  | @release _ j g reserved =>
    rw [region_freeRecords]
    split_ifs with e
    · rw [List.mem_singleton.mp e, reserved]; rfl
    · rw [committedRecord_closeUpOrder]
  | discard k =>
    rw [region_discardStaging]
    split_ifs with e
    · obtain ⟨g, e, -⟩ := isReservedOf_iff.mp e
      rw [e]; rfl
    · rw [committedRecord_dropStaged, committedRecord_closeUpOrder]

theorem Staging.bands {s t : State} (lists : BandListsHold s) (h : Staging s t) : t.bands = s.bands := by
  cases h with
  | keep regions bands panel => exact bands
  | panel unused regions bands valid => exact bands
  | reserve checks => simp [reserveRecord]
  | edit checks => simp
  | mark i => simp
  | release reserved =>
    exact without_of_reserved lists fun j hj => by rw [List.mem_singleton.mp hj, reserved]; rfl
  | discard k =>
    rw [discardStaging_bands]
    refine without_of_reserved lists fun j hj => ?_
    obtain ⟨g, e, -⟩ := isReservedOf_iff.mp ((mem_idsWhere _ s j).mp hj)
    rw [e]; rfl

/-- The band lists are in order in every state with the same committed table. -/
theorem BandListsHold.of_sameCommitted {s t : State} (lists : BandListsHold s) (same : sameCommitted s t) :
    BandListsHold t := by
  obtain ⟨bands, records⟩ := same
  intro b
  rw [bands]
  exact ⟨(lists b).1, fun i => ((lists b).2 i).trans (live_of_committedRecord (records i) b).symm⟩

theorem Staging.sameCommitted {s t : State} (lists : BandListsHold s) (h : Staging s t) : sameCommitted s t :=
  ⟨h.bands lists, h.committedRecord⟩

/-- A chain of staging alone leaves the committed table. -/
theorem Work.sameCommitted {may : Prop} {s t : State} (none : ¬ may) (lists : BandListsHold s) (h : Work may s t) :
    sameCommitted s t := by
  refine h.keeps_of_staging (P := Machine.sameCommitted s) none (fun u v stage same => ?_) ⟨rfl, fun _ => rfl⟩
  have step := stage.sameCommitted (lists.of_sameCommitted same)
  exact ⟨step.1.trans same.1, fun i => (step.2 i).trans (same.2 i)⟩

/-- Settles O51: a command outside the six has no committed change in its chain of effects. -/
theorem onlyAppliedWorkCommits : Obligations.OnlyAppliedWorkCommits := by
  intro c s t lists publish close clear application held reset h
  refine (exec_work reset h).sameCommitted (fun may => ?_) lists
  cases c with
  | publish => exact publish rfl
  | closeClient race => exact close race rfl
  | clearAll race => exact clear race rfl
  | copyEndApplication => exact application rfl
  | heldAnswerPlacement => exact held rfl
  | _ => exact may

/-- While the unit is COPYING a resting engine has no application in hand or due, and a close that waits will park, so that
no command commits (R83, R86). -/
theorem EngineAtRest.not_mayCommit {s : State} (rest : EngineAtRest s) (copying : isCopying s = true) (c : Instr) :
    ¬ mayCommit c s := by
  have notDue := rest.copyNotDue copying
  have notHeld : heldApplication s ≠ true := fun held => by rw [rest.applicationDue held] at notDue; cases notDue
  intro may
  cases c with
  | publish | closeClient | clearAll => rw [mayCommit, copying] at may; cases may
  | copyEndApplication =>
    obtain due | working := may
    · rw [notDue] at due; cases due
    · exact notHeld (by simp [heldApplication, working])
  | heldAnswerPlacement =>
    obtain held | ⟨k, waits⟩ := may
    · exact notHeld held
    · cases (rest.closeWaits k false waits).1
  | _ => exact may

/-- Settles O52: during a copy every command's chain of effects is of staging alone. -/
theorem committedFixedWhileCopying : Obligations.CommittedFixedWhileCopying := by
  intro c s t rest lists copying reset h
  exact (exec_work reset h).sameCommitted (rest.not_mayCommit copying c) lists

/-! ### The band lists under committed changes -/

theorem freeRecords_bandLists {s : State} (lists : BandListsHold s) (ids : List RegionId) :
    BandListsHold (freeRecords ids s) := by
  intro b
  rw [freeRecords_bands, get_without]
  refine ⟨(lists b).1.filter _, fun i => ?_⟩
  rw [List.mem_filter, (lists b).2 i, region_freeRecords]
  by_cases freed : i ∈ ids
  · simp [freed, isLive]
  · simp [freed]

/-- The band lists depend on the lists, on which records are LIVE and on their bands. -/
theorem BandListsHold.congr {s t : State} (lists : BandListsHold s) (bands : ∀ b, (t.bands.get b).Perm (s.bands.get b))
    (live : ∀ i, isLive (t.region i) = isLive (s.region i))
    (band : ∀ i, regionBand (t.region i) = regionBand (s.region i)) : BandListsHold t := by
  intro b
  refine ⟨(bands b).nodup_iff.mpr (lists b).1, fun i => ?_⟩
  rw [(bands b).mem_iff, (lists b).2 i, live, band]

theorem insertRegion_bandLists {s : State} (lists : BandListsHold s) (eff : Frame) (i : RegionId) :
    BandListsHold (insertRegion eff s i) := by
  have region := region_insertRegion eff s i
  cases r : s.region i with
  | reserved g =>
    have bands : (insertRegion eff s i).bands = s.bands.modify g.band (fun l => i :: l) := by simp only [insertRegion, r]
    have outside (b : Band) : i ∉ s.bands.get b := fun listed => by
      have live := (((lists b).2 i).mp listed).1
      rw [r] at live; cases live
    intro b
    rw [bands, get_modify]
    constructor
    · split_ifs
      · exact List.nodup_cons.mpr ⟨outside b, (lists b).1⟩
      · exact (lists b).1
    · intro j
      rw [region]
      by_cases e : j = i
      · subst e
        by_cases own : b = g.band
        · simp [own, r, insertedRecord, isLive, regionBand]
        · simp [own, outside b, r, insertedRecord, isLive, regionBand, Ne.symm own]
      · rw [if_neg e, ← (lists b).2 j]
        split_ifs <;> simp [e]
  | free => simpa only [insertRegion, r] using lists
  | live g => simpa only [insertRegion, r] using lists

theorem insertionStep_bandLists {s : State} (lists : BandListsHold s) (ids : List RegionId) (eff : Frame) :
    BandListsHold (insertionStep ids eff s) := by
  induction ids generalizing s with
  | nil => exact lists
  | cons i ids ih => exact ih (insertRegion_bandLists lists eff i)

/-- A move that is not skipped finds its subject in the list of its band, and rearranges that list (R49). -/
theorem applyMove_perm {s : State} (lists : BandListsHold s) {t : MoveTally}
    (perm : ∀ b, (t.bands.get b).Perm (s.bands.get b)) (m : Move) (b : Band) :
    ((applyMove s t m).bands.get b).Perm (s.bands.get b) := by
  unfold applyMove
  split
  · exact perm b
  next notSkipped =>
  split
  · next own band =>
    dsimp only
    rw [get_modify]
    split_ifs with e
    · have live : isLive (s.region m.subject) = true := by
        simp only [moveSkipped, Bool.or_eq_true, Bool.not_eq_true', not_or, Bool.not_eq_false] at notSkipped
        exact notSkipped.1.2
      have listed : m.subject ∈ t.bands.get b := (perm b).mem_iff.mpr (((lists b).2 _).mpr ⟨live, by rw [band, e]⟩)
      exact (placeSubject_perm m.placement listed).trans (perm b)
    · exact perm b
  · exact perm b

theorem tallyMoves_perm {s : State} (lists : BandListsHold s) (k : ClientId) (b : Band) :
    ((tallyMoves k s).bands.get b).Perm (s.bands.get b) := by
  have fold (ms : List Move) (t : MoveTally) (perm : ∀ b, (t.bands.get b).Perm (s.bands.get b)) :
      ∀ b, ((ms.foldl (applyMove s) t).bands.get b).Perm (s.bands.get b) := by
    induction ms generalizing t with
    | nil => exact perm
    | cons m ms ih => exact ih _ (applyMove_perm lists perm m)
  exact fold _ _ (fun _ => .refl _) b

@[simp] theorem isLive_stampRegion (eff : Frame) (r : Region) : isLive (stampRegion eff r) = isLive r := by cases r <;> rfl

@[simp] theorem regionBand_stampRegion (eff : Frame) (r : Region) : regionBand (stampRegion eff r) = regionBand r := by
  cases r <;> rfl

@[simp] theorem isLive_commitStaged (k : ClientId) (r : Region) : isLive (commitStaged k r) = isLive r := by
  cases r with
  | live g => simp only [commitStaged]; split_ifs <;> [skip; rfl]; split <;> rfl
  | _ => rfl

@[simp] theorem regionBand_commitStaged (k : ClientId) (r : Region) : regionBand (commitStaged k r) = regionBand r := by
  cases r with
  | live g => simp only [commitStaged]; split_ifs <;> [skip; rfl]; split <;> rfl
  | _ => rfl

/-- The state of a publish after its move step, before the stamps (R70). -/
theorem publishSteps_bandLists {s : State} (lists : BandListsHold s) (k : ClientId) :
    BandListsHold (publishSteps k s).1 := by
  have retired : BandListsHold (retireStep k s) := freeRecords_bandLists lists _
  have edited : BandListsHold (editStep k (retireStep k s)) :=
    retired.congr (fun b => by simp) (fun i => by simp) (fun i => by simp)
  have inserted : BandListsHold (insertedState k s) := insertionStep_bandLists edited _ _
  refine inserted.congr (fun b => ?_) (fun i => ?_) (fun i => ?_)
  · have bands : (publishSteps k s).1.bands = (tallyMoves k (insertedState k s)).bands := by
      simp [publishSteps, insertedState, moveStep]
    rw [bands]
    exact tallyMoves_perm inserted k b
  all_goals
    simp only [publishSteps, leavePublishing, region_updClient, region_stampStep]
    rw [region_congr (moveStep_regions _ _)]
    split_ifs <;> simp [insertedState]

theorem Commit.bandLists {s t : State} (h : Commit s t) (lists : BandListsHold s) : BandListsHold t := by
  cases h with
  | @publish k _ apart => exact publishSteps_bandLists lists k
  | close k =>
    exact (freeRecords_bandLists lists (s.idsWhere (isLiveOf k))).congr (fun b => by simp [applyClose])
      (fun i => by simp [applyClose]) (fun i => by simp [applyClose])
  | clear =>
    intro b
    cases b <;> simp [Bands.get, isLive]

/-- A step either runs no command, or a reset, or a command that is a chain of effects; an invariant of the tables and the
panel that a reset establishes and every effect keeps is kept by every step. -/
theorem step_keeps_of_effects {P : State → Prop} (reset : ∀ s, s.regions = State.reset.regions →
      s.bands = State.reset.bands → s.panel = State.reset.panel → P s)
    (stage : ∀ s t, Staging s t → P s → P t) (commit : ∀ s t, Commit s t → P s → P t) {s t : State} (p : P s)
    (h : step s = .next t) : P t := by
  unfold step at h
  split at h
  · cases h; exact p
  · next c rest _ =>
    have popped : P { s with pending := rest } := stage s _ (.keep rfl rfl rfl) p
    by_cases isReset : ∃ level, c = .deviceReset level
    · obtain ⟨level, rfl⟩ := isReset
      cases h
      exact reset _ rfl rfl rfl
    · have chain := exec_work (fun level e => isReset ⟨level, e⟩) h
      exact chain.keeps stage (fun _ => commit) popped

theorem region_reset (i : RegionId) : State.reset.region i = .free := by
  simp [State.reset, State.region]

/-- Settles O57: staging keeps the committed table, and each committed change keeps the lists in order. -/
theorem bandListsKept : Obligations.BandListsKept := by
  intro s t lists h
  refine step_keeps_of_effects (fun u regions bands _ b => ?_)
    (fun u v stage p => p.of_sameCommitted (stage.sameCommitted p)) (fun u v commit => commit.bandLists) lists h
  rw [bands]
  simp only [region_congr regions, region_reset]
  cases b <;> simp [State.reset, Bands.get, isLive]

/-! ### Guarded regions -/

/-- The number of guarded regions does not rise when no record enters the GUARDED band. -/
theorem guardedCount_le {s t : State}
    (enter : ∀ i, regionBand (t.region i) = some .guarded → regionBand (s.region i) = some .guarded) :
    guardedCount t ≤ guardedCount s := by
  refine ((nodup_idsWhere _ t).subperm fun i => ?_).length_le
  simpa using enter i

/-- One record that enters the GUARDED band raises the number by at most 1. -/
theorem guardedCount_le_succ {s t : State} (i : RegionId)
    (enter : ∀ j, j ≠ i → regionBand (t.region j) = some .guarded → regionBand (s.region j) = some .guarded) :
    guardedCount t ≤ guardedCount s + 1 := by
  have sub : t.idsWhere (fun r => decide (regionBand r = some .guarded)) ⊆
      i :: s.idsWhere fun r => decide (regionBand r = some .guarded) := fun j => by
    by_cases e : j = i
    · simp [e]
    · simpa [e] using enter j e
  exact ((nodup_idsWhere _ t).subperm sub).length_le

theorem Staging.guardedLimit {s t : State} (h : Staging s t) (few : GuardedLimitHolds s) : GuardedLimitHolds t := by
  have kept (enter : ∀ i, regionBand (t.region i) = some .guarded → regionBand (s.region i) = some .guarded) :
      GuardedLimitHolds t := (guardedCount_le enter).trans few
  cases h with
  | keep regions bands panel => exact kept fun i => by rw [region_congr regions]; exact id
  | panel unused regions bands valid => exact kept fun i => by rw [region_congr regions]; exact id
  | @reserve _ m k i checks =>
    obtain ⟨-, -, -, limit, -⟩ := createChecks_ok checks
    by_cases guarded : clientClass s k = .guarded
    · have other := guardedCount_le_succ (s := s) (t := reserveRecord i k (createPart m) s) i fun j e => by
        simp [reserveRecord, region_setRegion, e]
      exact other.trans (limit guarded)
    · refine kept fun j => ?_
      simp only [reserveRecord, region_updClient, region_setRegion]
      split_ifs
      · simp [regionBand, guarded]
      · exact id
  | edit checks =>
    refine kept fun j => ?_
    rw [region_setRegion]
    split_ifs with e
    · rw [e, regionBand_editRegion]; exact id
    · exact id
  | mark i =>
    refine kept fun j => ?_
    rw [region_setRegion]
    split_ifs with e
    · rw [e, regionBand_markRetire]; exact id
    · exact id
  | release reserved =>
    refine kept fun j => ?_
    rw [region_freeRecords]
    split_ifs <;> simp
  | discard k =>
    refine kept fun j => ?_
    rw [region_discardStaging]
    split_ifs <;> simp

/-- A published record is FREE or keeps its band. -/
theorem regionBand_publishedRecord {k : ClientId} {eff : Frame} {moved : Bool} {r : Region} {b : Band}
    (h : regionBand (publishedRecord k eff moved r) = some b) : regionBand r = some b := by
  obtain e | ⟨e, -⟩ | ⟨q, rfl, -, e⟩ | ⟨q, st, rfl, -, -, -, e⟩ | ⟨q, f, rfl, -, e⟩ := publishedRecord_cases k eff moved r <;>
    rw [e] at h
  · cases h
  all_goals exact h

theorem Commit.guardedLimit {s t : State} (h : Commit s t) (few : GuardedLimitHolds s) : GuardedLimitHolds t := by
  refine (guardedCount_le fun i => ?_).trans few
  cases h with
  | publish apart =>
    rw [region_publishSteps]
    exact regionBand_publishedRecord
  | close k =>
    rw [region_applyClose]
    split_ifs
    · simp [regionBand]
    · exact id
  | clear => simp [regionBand]

/-- Guarded rectangles stay apart when every committed part was one already. -/
theorem GuardedDisjoint.of_committed {s t : State} (apart : GuardedDisjoint s)
    (old : ∀ i h, t.region i = .live h → ∃ g, s.region i = .live g ∧ g.band = h.band ∧ g.committed = h.committed) :
    GuardedDisjoint t := by
  intro i j ne g h hi hj bi bj
  obtain ⟨g', ei, gb, gc⟩ := old i g hi
  obtain ⟨h', ej, hb, hc⟩ := old j h hj
  rw [← gc, ← hc]
  exact apart i j ne g' h' ei ej (gb.trans bi) (hb.trans bj)

theorem Staging.guardedDisjoint {s t : State} (h : Staging s t) (apart : GuardedDisjoint s) : GuardedDisjoint t := by
  refine apart.of_committed fun i q live => ?_
  have same := h.committedRecord i
  rw [live] at same
  cases r : s.region i with
  | free => rw [r] at same; cases same
  | reserved g => rw [r] at same; cases same
  | live g =>
    rw [r] at same
    simp only [Machine.committedRecord, Option.some.injEq, Prod.mk.injEq] at same
    exact ⟨g, rfl, same.2.1.symm, same.2.2.1.symm⟩

theorem mem_guardSet {k : ClientId} {s : State} {i : RegionId} {g : Geometry} :
    (i, g) ∈ guardSet k s ↔ guardRect k (s.region i) = some g := by
  simp [guardSet]

/-- A guard check that passes finds no two rectangles of its set overlapping (R65). -/
theorem firstOverlap_eq_none {set : List (RegionId × Geometry)} :
    firstOverlap set = none ↔ ∀ a ∈ set, ∀ b ∈ set, b.1 ≠ a.1 → a.2.overlaps b.2 = false := by
  simp only [firstOverlap, List.findSome?_eq_none_iff, Option.map_eq_none_iff, List.find?_eq_none, Bool.and_eq_true,
    decide_eq_true_eq, not_and, Bool.not_eq_true]

/-- A guarded region of a published table has as committed rectangle the one the guard check judged (R65, R68, R69). -/
theorem guardRect_of_publishedRecord {k : ClientId} {eff : Frame} {moved : Bool} {r : Region} {h : LiveRegion}
    (live : publishedRecord k eff moved r = .live h) (guarded : h.band = .guarded) :
    guardRect k r = some h.committed.geometry := by
  obtain e | ⟨e, other⟩ | ⟨q, rfl, own, e⟩ | ⟨q, st, rfl, own, staged, kept, e⟩ | ⟨q, f, rfl, none, e⟩ :=
    publishedRecord_cases k eff moved r <;> rw [e] at live
  · cases live
  · exact absurd live (other h)
  · cases live
    simp_all [guardRect]
  · cases live
    simp_all [guardRect]
  · cases live
    by_cases own : q.owner = k
    · simp_all [guardRect]
    · simp_all [guardRect]

theorem Commit.guardedDisjoint {s t : State} (h : Commit s t) (apart : GuardedDisjoint s) : GuardedDisjoint t := by
  cases h with
  | publish check =>
    intro i j ne g h hi hj gi gj
    rw [region_publishSteps] at hi hj
    exact firstOverlap_eq_none.mp check (i, _) (mem_guardSet.mpr (guardRect_of_publishedRecord hi gi)) (j, _)
      (mem_guardSet.mpr (guardRect_of_publishedRecord hj gj)) (Ne.symm ne)
  | close k =>
    refine apart.of_committed fun i q live => ?_
    rw [region_applyClose] at live
    split_ifs at live
    exact ⟨q, live, rfl, rfl⟩
  | clear =>
    intro i j ne g h hi
    rw [region_applyClear] at hi
    cases hi

/-- Settles O56: a CREATE of a guarded region finds room below 4, and a publish that leaves a guarded overlap is refused. -/
theorem guardedKept : Obligations.GuardedKept := by
  constructor
  · intro s t few h
    refine step_keeps_of_effects (fun u regions _ _ => ?_) (fun _ _ stage => stage.guardedLimit)
      (fun _ _ commit => commit.guardedLimit) few h
    simp [GuardedLimitHolds, guardedCount, State.idsWhere, region_congr regions, region_reset, regionBand]
  · intro s t apart h
    refine step_keeps_of_effects (fun u regions _ _ i j _ g q live => ?_) (fun _ _ stage => stage.guardedDisjoint)
      (fun _ _ commit => commit.guardedDisjoint) apart h
    rw [region_congr regions, region_reset] at live
    cases live

end Sys2Proof.Machine
end

section
/-! PROOF. The engine's pieces of work, taken apart once into the operations that invariants speak about: every command of the
engine is a chain of such operations, each with what was checked before it. -/

namespace Sys2Proof.Machine

/-! ### What a request has passed -/

/-- A request of a kind is in hand: the engine is WORKING on it, no application is due, and checks 2 to 5 of R78 are passed. -/
structure Asked (s : State) (kind : RequestKind) (h : Header) : Prop where
  engine : s.engine = .working .finish
  notDue : s.copyEndDue = false
  passes : Passes s kind h

theorem Asked.notHeld {s : State} {kind : RequestKind} {h : Header} (asked : Asked s kind h) : heldClose s = none := by
  simp [heldClose, asked.engine]

/-- The client of a staging kind in hand is ACTIVE (R27, R78). -/
theorem Asked.active {s : State} {kind : RequestKind} {h : Header} (asked : Asked s kind h)
    (staging : stagingKind kind = true) : (s.client h.client).state = .active := by
  have opened := asked.passes.isOpen
  have lapsed := asked.passes.notLapsed
  have publishing := asked.passes.notPublishing
  cases e : (s.client h.client).state with
  | active => rfl
  | closed => exact absurd e opened.1
  | closing => exact absurd e opened.2
  | lapsed => obtain rfl | rfl := lapsed e <;> cases staging
  | publishing => rw [publishing e] at staging; cases staging

/-- With no refusal by the common checks a request passes them. -/
theorem passes_of_no_refusal {s t : State} {kind : RequestKind} {h : Header} (clients : t.clients = s.clients)
    (first : clientRefusal kind h s = none) (later : laterRefusal kind h t = none) : Passes t kind h := by
  have client := client_congr clients h.client
  unfold clientRefusal at first
  unfold laterRefusal at later
  rw [client] at later
  split_ifs at later with heldBack permitted
  simp only [not_or, not_and] at heldBack
  refine ⟨?_, fun lapsed => ?_, fun publishing => ?_, fun clear => ?_, fun supervisor => ?_⟩
  · rw [client]; constructor <;> intro e <;> simp [e] at first
  · rw [client] at lapsed; simpa [lapsed, or_iff_not_imp_left] using first
  · rw [client] at publishing; simpa using heldBack.1 publishing
  · simpa using heldBack.2 clear
  · by_contra ne; exact permitted ⟨supervisor, ne⟩

/-- What the taking of an accepted close has established before its later steps (R31): its target is not client 0, is open, has
nothing staged, and no CLEAR_ALL is parked. -/
structure Closing (k : ClientId) (s : State) : Prop where
  target : k ≠ 0
  engine : s.engine = .working .finish
  notDue : s.copyEndDue = false
  isOpen : (s.client k).state ≠ .closed ∧ (s.client k).state ≠ .closing
  noClear : clearParked s = false
  noReserved : ∀ i, isReservedOf k (s.region i) = false
  noStaged : ∀ i, isStagedOf k (s.region i) = false
  noMoves : (s.client k).moves = []

/-- A close may go on with steps 3 to 5 of R31, `parks` being the judgment of R83: it waited, or it is in hand and its target
has no parked publish. -/
def CloseMay (k : ClientId) (parks : Bool) (s : State) : Prop :=
  heldClose s = some (k, parks) ∨ (Closing k s ∧ isCopying s = parks ∧ ∀ tag, ParkedEntry.publish k tag ∉ s.parked)

/-- Steps 3 and 4 of R31: the counter is stopped and the target is CLOSING. -/
def closeBegun (k : ClientId) (s : State) : State :=
  (askLease [.stop k] s).updClient k fun c => { c with state := .closing }

/-- What the notice of an open client leaves of the tables (R98). -/
def lapsedState (k : ClientId) (s : State) : State :=
  (discardStaging k (if (s.client k).parkedEntry then removePublish k s else s)).updClient k
    fun c => { c with state := .lapsed }

/-- The notice of client `k` leaves the Lapse Pending Set (R98 step 1). -/
def noticeTaken (k : ClientId) (s : State) : State :=
  { s with lapsePending := s.lapsePending.filter fun j => decide (j ≠ k) }

/-! ### The operations -/

/-- An operation on the engine, the indications and the two queues alone: at most one answer joins and one message leaves, the
close that waits still does, and a copy-end application is finished only with nothing parked. -/
structure Quiet (s t : State) : Prop where
  frame : t = { s with
    engine := t.engine, committedWork := t.committedWork, copyEndDue := t.copyEndDue, requests := t.requests
    answers := t.answers }
  held : heldClose t = heldClose s
  answers : t.answers = s.answers ∨ ∃ a, s.answers.length < 16 ∧ t.answers = s.answers ++ [a]
  requests : t.requests = s.requests ∨ ∃ m, s.requests = m :: t.requests
  due : t.copyEndDue = s.copyEndDue ∨ (s.parked = [] ∧ heldClose s = none ∧ t.copyEndDue = false)

/-- The operations that the engine's pieces of work are made of. -/
inductive Piece : State → State → Prop
  | quiet {s t : State} (quiet : Quiet s t) : Piece s t
  | settle (s : State) : Piece s (settleLease s)
  | decrement (s : State) : Piece s (countDown s)
  | claim (k : ClientId) (s : State) : Piece s (handLease (.claim k) s)
  | reserve {s : State} {m : List Word} {h : Header} {i : RegionId} (asked : Asked s .create h)
      (checks : createChecks m h.client s = .ok i) : Piece s (reserveRecord i h.client (createPart m) s)
  | edit {s : State} {m : List Word} {h : Header} {i : RegionId} (asked : Asked s .edit h)
      (checks : editChecks m h.client s = .ok i) : Piece s (s.setRegion i (editRegion (editGroups m) (s.region i)))
  | mark {s : State} {h : Header} {i : RegionId} {g : LiveRegion} (asked : Asked s .retire h)
      (live : s.region i = .live g) (own : g.owner = h.client) : Piece s (s.setRegion i (markRetire (s.region i)))
  | release {s : State} {h : Header} {i : RegionId} {g : ReservedRegion} (asked : Asked s .retire h)
      (reserved : s.region i = .reserved g) (own : g.owner = h.client) : Piece s (retireReserved i h.client s)
  | restack {s : State} {m : List Word} {h : Header} {v : Move} (asked : Asked s .restack h)
      (checks : restackChecks m h.client s = .ok v) :
      Piece s (s.updClient h.client fun c => { c with moves := c.moves ++ [v] })
  | discard (k : ClientId) {s : State} (notHeld : heldClose s = none) : Piece s (discardStaging k s)
  | park {s : State} {h : Header} (asked : Asked s .publish h) (copying : isCopying s = true) :
      Piece s (parkPublish h.client h.tag s)
  | publish {s : State} {h : Header} (asked : Asked s .publish h) : Piece s (applyPublish h.client s).1
  | pop {s : State} {e : ParkedEntry} {rest : List ParkedEntry} (notHeld : heldClose s = none) (parked : s.parked = e :: rest) :
      Piece s (applyEntry e { s with parked := rest }).1
  | clear {s : State} {h : Header} (asked : Asked s .clearAll h) (copying : isCopying s = false) : Piece s (applyClear s)
  | parkClear {s : State} {h : Header} (asked : Asked s .clearAll h) (copying : isCopying s = true) :
      Piece s { s with parked := s.parked ++ [.clearAll h.tag] }
  | resume {s : State} {h : Header} (asked : Asked s .resume h) (lapsed : (s.client h.client).state = .lapsed) :
      Piece s (askLease [.load h.client (leasePeriod s h.client)]
        (s.updClient h.client fun c => { c with state := .active }))
  | opening {s : State} {m : List Word} {h : Header} {k : ClientId} {t : Terms} (asked : Asked s .openClient h)
      (fields : openFields m = some (k, t)) (closed : (s.client k).state = .closed) :
      Piece s (askLease [.load k t.period] (s.updClient k fun _ =>
        { state := .active, terms := some t, owned := 0, moves := [], parkedEntry := false }))
  | panel {s : State} (p : Panel) : Piece s { s with panel := p }
  | cancel {s : State} {k : ClientId} {ptag : Tag} (tag : Tag) (closing : Closing k s)
      (parked : ParkedEntry.publish k ptag ∈ s.parked) :
      Piece s { removePublish k s with engine := .working (.closeTail k tag (isCopying s)) }
  | closePark {s : State} {k : ClientId} (tag : Tag) (may : CloseMay k true s) : Piece s (closeTail k tag true s)
  | closeNow {s : State} {k : ClientId} (may : CloseMay k false s) :
      Piece s { applyClose k (closeBegun k s) with committedWork := false, engine := .free }
  | lapse {s : State} {k : ClientId} (notHeld : heldClose s = none) (pending : k ∈ s.lapsePending)
      (opened : (s.client k).state = .active ∨ (s.client k).state = .publishing) : Piece s (lapsedState k (noticeTaken k s))
  | ignore {s : State} {k : ClientId} (notOpen : (s.client k).state ≠ .active ∧ (s.client k).state ≠ .publishing) :
      Piece s (noticeTaken k s)

/-- A chain of operations. -/
def Pieces : State → State → Prop := Relation.ReflTransGen Piece

theorem Pieces.refl (s : State) : Pieces s s := Relation.ReflTransGen.refl

theorem Pieces.trans {s t u : State} (h : Pieces s t) (g : Pieces t u) : Pieces s u := Relation.ReflTransGen.trans h g

theorem Piece.pieces {s t : State} (h : Piece s t) : Pieces s t := .single h

theorem Quiet.pieces {s t : State} (h : Quiet s t) : Pieces s t := .single (.quiet h)

/-- What every operation keeps, a chain keeps. -/
theorem Pieces.keeps {P : State → Prop} (piece : ∀ s t, Piece s t → P s → P t) {s t : State} (h : Pieces s t) (p : P s) :
    P t := by
  induction h with
  | refl => exact p
  | tail _ op ih => exact piece _ _ op ih

/-! ### Answers -/

/-- An answer is placed or held; what waits after it must have waited before. -/
theorem placeAnswer_quiet {r : Resume} {s : State} (waits : heldClose s = waitingClose r) (a : Answer) :
    Quiet s (placeAnswer a r s) := by
  have held := (heldClose_placeAnswer a r s).trans waits.symm
  obtain ⟨room, p⟩ | ⟨-, p⟩ := placeAnswer_cases a r s <;> rw [p] at held ⊢
  · cases r with
    | finish => exact ⟨rfl, held, .inr ⟨a, room, rfl⟩, .inl rfl, .inl rfl⟩
    | closeTail k tag parks => exact ⟨rfl, held, .inr ⟨a, room, rfl⟩, .inl rfl, .inl rfl⟩
    | application =>
      simp only [answerPlaced] at held ⊢
      split_ifs at held ⊢ with empty
      · exact ⟨rfl, held, .inr ⟨a, room, rfl⟩, .inl rfl, .inr ⟨List.isEmpty_iff.mp empty, waits, rfl⟩⟩
      · exact ⟨rfl, held, .inr ⟨a, room, rfl⟩, .inl rfl, .inl rfl⟩
  · exact ⟨rfl, held, .inl rfl, .inl rfl, .inl rfl⟩

theorem placeLast_pieces {s : State} (notHeld : heldClose s = none) (a : Answer) : Pieces s (placeLast a s) :=
  (placeAnswer_quiet (r := .finish) notHeld a).pieces

theorem answerRequest_pieces {s : State} (notHeld : heldClose s = none) (kind : RequestKind) (h : Header) (r : Reply) :
    Pieces s (answerRequest kind h r s) :=
  placeLast_pieces notHeld _

theorem finishPiece_pieces {s : State} (notHeld : heldClose s = none) : Pieces s (finishPiece s) :=
  Quiet.pieces ⟨rfl, notHeld.symm, .inl rfl, .inl rfl, .inl rfl⟩

/-- The committed-work indication, raised or lowered. -/
theorem committedWork_pieces (b : Bool) (s : State) : Pieces s { s with committedWork := b } :=
  Quiet.pieces ⟨rfl, rfl, .inl rfl, .inl rfl, .inl rfl⟩

/-! ### Applying entries -/

theorem effect_notHeld {s t : State} (engine : t.engine = s.engine) (notHeld : heldClose s = none) : heldClose t = none :=
  (heldClose_congr engine).trans notHeld

@[simp] theorem insertRegion_engine (eff : Frame) (s : State) (i : RegionId) : (insertRegion eff s i).engine = s.engine := by
  unfold insertRegion; split <;> simp

@[simp] theorem insertionStep_engine (ids : List RegionId) (eff : Frame) (s : State) :
    (insertionStep ids eff s).engine = s.engine := by
  induction ids generalizing s with
  | nil => rfl
  | cons i ids ih => exact (ih _).trans (insertRegion_engine eff s i)

@[simp] theorem applyPublish_engine (k : ClientId) (s : State) : (applyPublish k s).1.engine = s.engine := by
  unfold applyPublish
  split
  · simp
  · simp [publishSteps]

@[simp] theorem applyEntry_engine (e : ParkedEntry) (s : State) : (applyEntry e s).1.engine = s.engine := by
  cases e <;> simp [applyEntry]

/-- An entry applied at once: raised, applied, lowered, answered (R83). -/
theorem applyNow_pieces {e : ParkedEntry} {s : State} (notHeld : heldClose s = none)
    (apply : Piece { s with committedWork := true } (applyEntry e { s with committedWork := true }).1) :
    Pieces s (applyNow e s) := by
  rw [applyNow_eq]
  refine (committedWork_pieces true s).trans (apply.pieces.trans ((committedWork_pieces false _).trans ?_))
  refine placeLast_pieces ?_ _
  exact effect_notHeld (applyEntry_engine e { s with committedWork := true }) notHeld

theorem applyNext_pieces {s : State} (notHeld : heldClose s = none) : Pieces s (applyNext s) := by
  obtain ⟨empty, e⟩ | ⟨e, rest, parked, eq⟩ := applyNext_cases s
  · rw [e]
    exact Quiet.pieces ⟨rfl, notHeld.symm, .inl rfl, .inl rfl, .inr ⟨empty, notHeld, rfl⟩⟩
  · rw [eq]
    refine (Piece.pop notHeld parked).pieces.trans (placeAnswer_quiet (r := .application) ?_ _).pieces
    exact effect_notHeld (applyEntry_engine e _) notHeld

/-- Placing the last answer of a piece overrides what the engine was doing. -/
theorem placeLast_engine (a : Answer) (s : State) (e : Engine) : placeLast a { s with engine := e } = placeLast a s := by
  rw [placeLast_eq_placed, placeLast_eq_placed, placed_engine]

theorem closeTail_pieces {k : ClientId} {parks : Bool} {s : State} (tag : Tag) (may : CloseMay k parks s) :
    Pieces s (closeTail k tag parks s) := by
  cases parks with
  | true => exact (Piece.closePark tag may).pieces
  | false =>
    have applied : ∃ a, closeTail k tag false s = placeLast a { applyClose k (closeBegun k s) with committedWork := false } :=
      ⟨_, rfl⟩
    obtain ⟨a, applied⟩ := applied
    rw [applied, ← placeLast_engine a _ .free]
    exact (Piece.closeNow may).pieces.trans (placeLast_pieces rfl a)

/-! ### The requests -/

theorem takeRequest_pieces {kind : Option RequestKind} {s t : State} {m : List Word}
    (h : takeRequest kind s = some (m, t)) :
    Pieces s t ∧ t.engine = .working .finish ∧ t.copyEndDue = false ∧ t.snapState = s.snapState := by
  obtain ⟨free, notDue, -, rest, oldest, -, rfl⟩ := takeRequest_eq_some.mp h
  refine ⟨(Piece.settle s).pieces.trans (Quiet.pieces ?_), rfl, by simpa using notDue, by simp⟩
  exact ⟨rfl, by simp [heldClose, free], .inl rfl, .inr ⟨m, by simpa using oldest⟩, .inl rfl⟩

theorem framedBy_pieces (race : LeaseRace) (s : State) : Pieces s (framedBy race s) := by
  cases race with
  | apart => exact .refl s
  | frameFirst => exact (Piece.decrement s).pieces

/-- A request is taken apart when its kind's own work is, on a state in which it is in hand. -/
theorem runRacing_pieces {race : LeaseRace} {kind : RequestKind} {own : List Word → Header → State → State} {s : State}
    (work : ∀ m h u, Asked u kind h → Pieces u (own m h u)) : Pieces s (runRacing race kind own s) := by
  obtain e | ⟨m, t, take, outcome⟩ := runRacing_cases race kind own s
  · rw [e]; exact .refl s
  obtain ⟨begun, engine, notDue, -⟩ := takeRequest_pieces take
  have frame := framedBy_frame race t
  have engine' : (framedBy race t).engine = .working .finish := by rw [frame]; exact engine
  have framed := begun.trans (framedBy_pieces race t)
  obtain ⟨c, -, e⟩ | ⟨first, ⟨c, -, e⟩ | ⟨later, e⟩⟩ := outcome <;> rw [e]
  · exact framed.trans (answerRequest_pieces (by simp [heldClose, engine']) _ _ _)
  · exact framed.trans ((Piece.claim _ _).pieces.trans (answerRequest_pieces (by simp [heldClose, engine']) _ _ _))
  · refine framed.trans ((Piece.claim _ _).pieces.trans (work _ _ _ ⟨by simpa using engine', ?_, ?_⟩))
    · rw [handLease_copyEndDue, frame]; exact notDue
    · exact passes_of_no_refusal (by simp) first later

theorem ownCreate_pieces (m : List Word) (h : Header) (s : State) (asked : Asked s .create h) :
    Pieces s (ownCreate m h s) := by
  unfold ownCreate
  split
  · exact answerRequest_pieces asked.notHeld _ _ _
  · next checks =>
    exact (Piece.reserve asked checks).pieces.trans
      (answerRequest_pieces (effect_notHeld (by simp [reserveRecord]) asked.notHeld) _ _ _)

theorem ownEdit_pieces (m : List Word) (h : Header) (s : State) (asked : Asked s .edit h) : Pieces s (ownEdit m h s) := by
  unfold ownEdit
  split
  · exact answerRequest_pieces asked.notHeld _ _ _
  · next checks =>
    exact (Piece.edit asked checks).pieces.trans (answerRequest_pieces (effect_notHeld (by simp) asked.notHeld) _ _ _)

theorem ownRetire_pieces (m : List Word) (h : Header) (s : State) (asked : Asked s .retire h) :
    Pieces s (ownRetire m h s) := by
  unfold ownRetire
  split
  · exact answerRequest_pieces asked.notHeld _ _ _
  next i _ =>
  split_ifs with owner live
  · exact answerRequest_pieces asked.notHeld _ _ _
  · cases r : s.region i with
    | free => simp [r] at live
    | reserved g => simp [r] at live
    | live g =>
      have own : g.owner = h.client := by simpa [r] using owner
      rw [← r]
      exact (Piece.mark asked r own).pieces.trans (answerRequest_pieces (effect_notHeld (by simp) asked.notHeld) _ _ _)
  · cases r : s.region i with
    | free => simp [r] at owner
    | live g => simp [r] at live
    | reserved g =>
      have own : g.owner = h.client := by simpa [r] using owner
      exact (Piece.release asked r own).pieces.trans
        (answerRequest_pieces (effect_notHeld (by simp [retireReserved]) asked.notHeld) _ _ _)

theorem ownRestack_pieces (m : List Word) (h : Header) (s : State) (asked : Asked s .restack h) :
    Pieces s (ownRestack m h s) := by
  unfold ownRestack
  split
  · exact answerRequest_pieces asked.notHeld _ _ _
  · next checks =>
    exact (Piece.restack asked checks).pieces.trans (answerRequest_pieces (effect_notHeld (by simp) asked.notHeld) _ _ _)

theorem ownPublish_pieces (m : List Word) (h : Header) (s : State) (asked : Asked s .publish h) :
    Pieces s (ownPublish m h s) := by
  unfold ownPublish
  split_ifs with empty copying
  · exact answerRequest_pieces asked.notHeld _ _ _
  · exact (Piece.park asked copying).pieces
  · exact applyNow_pieces asked.notHeld (.publish ⟨asked.engine, asked.notDue, { asked.passes with }⟩)

theorem ownQueryRegion_pieces (m : List Word) (h : Header) (s : State) (asked : Asked s .queryRegion h) :
    Pieces s (ownQueryRegion m h s) := by
  unfold ownQueryRegion
  split <;> exact answerRequest_pieces asked.notHeld _ _ _

theorem reloadWithin_pieces (race : QueryRace) (k : ClientId) (s : State) : Pieces s (reloadWithin race k s) := by
  have reload (t : State) : Pieces t (settleLease (handLease (.claim k) t)) :=
    (Piece.claim k t).pieces.trans (Piece.settle _).pieces
  cases race with
  | apart => exact reload s
  | beforeReload => exact (Piece.decrement s).pieces.trans (reload _)
  | afterReload => exact (reload s).trans (Piece.decrement _).pieces

theorem ownQueryClient_pieces {s : State} (notHeld : heldClose s = none) (m : List Word) (h : Header) :
    Pieces s (ownQueryClient m h s) := by
  unfold ownQueryClient
  split
  · exact answerRequest_pieces notHeld _ _ _
  · split_ifs <;> exact answerRequest_pieces notHeld _ _ _

theorem runQueryClient_pieces (race : QueryRace) (s : State) : Pieces s (runQueryClient race s) := by
  unfold runQueryClient
  split
  · exact .refl s
  next m t take =>
  obtain ⟨begun, engine, -⟩ := takeRequest_pieces take
  have notHeld : heldClose t = none := by simp [heldClose, engine]
  dsimp only
  split
  · refine begun.trans ?_
    split_ifs
    · exact answerRequest_pieces notHeld _ _ _
    · exact (Piece.decrement t).pieces.trans (answerRequest_pieces (effect_notHeld (by simp) notHeld) _ _ _)
  · refine begun.trans ((reloadWithin_pieces race _ t).trans (ownQueryClient_pieces (effect_notHeld ?_ notHeld) _ _))
    rw [reloadWithin_frame race _ t]

theorem ownResume_pieces (m : List Word) (h : Header) (s : State) (asked : Asked s .resume h) :
    Pieces s (ownResume m h s) := by
  unfold ownResume
  split_ifs with lapsed
  · exact (Piece.resume asked lapsed).pieces.trans (answerRequest_pieces (effect_notHeld (by simp) asked.notHeld) _ _ _)
  · exact answerRequest_pieces asked.notHeld _ _ _

theorem ownOpenClient_pieces (m : List Word) (h : Header) (s : State) (asked : Asked s .openClient h) :
    Pieces s (ownOpenClient m h s) := by
  unfold ownOpenClient
  split
  · exact answerRequest_pieces asked.notHeld _ _ _
  next fields =>
  split_ifs with closed
  · exact (Piece.opening asked fields closed).pieces.trans
      (answerRequest_pieces (effect_notHeld (by simp) asked.notHeld) _ _ _)
  · exact answerRequest_pieces asked.notHeld _ _ _

/-! ### Closing -/

theorem isStagedOf_dropStaged (k : ClientId) (r : Region) : isStagedOf k (dropStaged k r) = false := by
  cases r with
  | live g => simp only [dropStaged]; split_ifs with own <;> simp [own]
  | _ => rfl

/-- Discarding leaves a client nothing staged (R60). -/
theorem discardStaging_nothing (k : ClientId) (s : State) :
    (∀ i, isReservedOf k ((discardStaging k s).region i) = false) ∧ (∀ i, isStagedOf k ((discardStaging k s).region i) = false)
      ∧ ((discardStaging k s).client k).moves = [] := by
  refine ⟨fun i => ?_, fun i => ?_, by simp [client_discardStaging]⟩
  · rw [region_discardStaging]
    split_ifs with reserved <;> simp [reserved]
  · rw [region_discardStaging]
    split_ifs
    · rfl
    · exact isStagedOf_dropStaged k _

@[simp] theorem discardStaging_state (k j : ClientId) (s : State) :
    ((discardStaging k s).client j).state = (s.client j).state := by
  rw [client_discardStaging]; split_ifs <;> simp [client_freeRecords]

theorem parkedPublishTag_eq_some {k : ClientId} {s : State} {tag : Tag} (h : parkedPublishTag k s = some tag) :
    ParkedEntry.publish k tag ∈ s.parked := by
  unfold parkedPublishTag at h
  split at h
  · next j g found =>
    cases h
    have is := List.find?_some found
    simp only [isPublishOf, decide_eq_true_eq] at is
    exact is ▸ List.mem_of_find?_eq_some found
  · cases h

theorem parkedPublishTag_eq_none {k : ClientId} {s : State} (h : parkedPublishTag k s = none) (tag : Tag) :
    ParkedEntry.publish k tag ∉ s.parked := by
  intro parked
  unfold parkedPublishTag at h
  split at h
  · cases h
  · next other =>
    cases found : s.parked.find? (isPublishOf k) with
    | none => simpa [isPublishOf] using List.find?_eq_none.mp found _ parked
    | some e =>
      cases e with
      | publish j g => exact other j g found
      | close j g => exact absurd (List.find?_some found) (by simp [isPublishOf])
      | clearAll g => exact absurd (List.find?_some found) (by simp [isPublishOf])

theorem goOn_answerPlaced_closeTail (k : ClientId) (tag : Tag) (parks : Bool) (s : State) :
    goOn (answerPlaced (.closeTail k tag parks) s) =
      closeTail k tag parks { s with engine := .working (.closeTail k tag parks) } := rfl

/-- The target's parked publish is cancelled; with room for its answer the close goes on, and otherwise it waits (R32). -/
theorem cancel_pieces {k : ClientId} {ptag tag : Tag} {s : State} (closing : Closing k s)
    (parked : ParkedEntry.publish k ptag ∈ s.parked) (a : Answer) :
    Pieces s (goOn (placeAnswer a (.closeTail k tag (isCopying s)) (removePublish k s))) := by
  refine (Piece.cancel tag closing parked).pieces.trans ?_
  obtain ⟨room, p⟩ | ⟨-, p⟩ := placeAnswer_cases a (.closeTail k tag (isCopying s)) (removePublish k s) <;> rw [p]
  · rw [goOn_answerPlaced_closeTail]
    refine Pieces.trans (Quiet.pieces ?_) (closeTail_pieces tag (.inl rfl))
    exact ⟨rfl, rfl, .inr ⟨a, room, rfl⟩, .inl rfl, .inl rfl⟩
  · exact Quiet.pieces ⟨rfl, rfl, .inl rfl, .inl rfl, .inl rfl⟩

theorem takeClose_pieces {k : ClientId} {tag : Tag} {s : State} {h : Header} (asked : Asked s .closeClient h) (target : k ≠ 0)
    (isOpen : (s.client k).state ≠ .closed ∧ (s.client k).state ≠ .closing) : Pieces s (takeClose k tag s) := by
  obtain ⟨noReserved, noStaged, noMoves⟩ := discardStaging_nothing k s
  have copying : isCopying (discardStaging k s) = isCopying s := by simp only [isCopying, discardStaging_snapState]
  have closing : Closing k (discardStaging k s) :=
    { target, noReserved, noStaged, noMoves
      engine := by simpa using asked.engine
      notDue := by simpa using asked.notDue
      isOpen := by simpa using isOpen
      noClear := by
        rw [clearParked_congr (discardStaging_parked k s)]
        cases c : clearParked s with
        | false => rfl
        | true => exact absurd (asked.passes.noClear c) (by decide) }
  refine (Piece.discard k asked.notHeld).pieces.trans ?_
  unfold takeClose
  dsimp only
  split
  · next ptag parked =>
    rw [← copying]
    exact cancel_pieces closing (parkedPublishTag_eq_some parked) _
  · next none => exact closeTail_pieces tag (.inr ⟨closing, copying, parkedPublishTag_eq_none none⟩)

theorem targetNumber_eq_some {n : Nat} {k : ClientId} (h : targetNumber n = some k) : k.val = n ∧ k ≠ 0 := by
  unfold targetNumber clientNumber at h
  split_ifs at h with zero small
  cases h
  exact ⟨rfl, fun e => zero (congrArg Fin.val e)⟩

theorem ownCloseClient_pieces (m : List Word) (h : Header) (s : State) (asked : Asked s .closeClient h) :
    Pieces s (ownCloseClient m h s) := by
  unfold ownCloseClient
  split
  · exact answerRequest_pieces asked.notHeld _ _ _
  next k target =>
  split
  · exact answerRequest_pieces asked.notHeld _ _ _
  · exact answerRequest_pieces asked.notHeld _ _ _
  all_goals next state => exact takeClose_pieces asked (targetNumber_eq_some target).2 (by simp [state])

theorem ownClearAll_pieces (m : List Word) (h : Header) (s : State) (asked : Asked s .clearAll h) :
    Pieces s (ownClearAll m h s) := by
  unfold ownClearAll
  split_ifs with copying
  · exact (Piece.parkClear asked copying).pieces.trans (finishPiece_pieces asked.notHeld)
  · have notCopying : isCopying s = false := by simpa using copying
    exact applyNow_pieces asked.notHeld (.clear (h := h) ⟨asked.engine, asked.notDue, { asked.passes with }⟩ notCopying)

theorem ownSetPanel_pieces (m : List Word) (h : Header) (s : State) (asked : Asked s .setPanel h) :
    Pieces s (ownSetPanel m h s) := by
  unfold ownSetPanel
  dsimp only
  split_ifs
  · exact answerRequest_pieces asked.notHeld _ _ _
  · refine (Piece.panel { width := messageNumber m 3, height := messageNumber m 4 }).pieces.trans ?_
    refine answerRequest_pieces ?_ _ _ _
    exact effect_notHeld (s := s) rfl asked.notHeld
  · exact answerRequest_pieces asked.notHeld _ _ _

/-! ### The engine's other work -/

theorem lapseClient_pieces {k : ClientId} {s : State} (notHeld : heldClose s = none) (pending : k ∈ s.lapsePending)
    (opened : (s.client k).state = .active ∨ (s.client k).state = .publishing) :
    Pieces s (lapseClient k (noticeTaken k s)) := by
  have lapsed : heldClose (lapsedState k (noticeTaken k s)) = none := by
    refine effect_notHeld ?_ notHeld
    unfold lapsedState
    simp only [State.updClient_engine, discardStaging_engine]
    split_ifs <;> simp [noticeTaken]
  refine (Piece.lapse notHeld pending opened).pieces.trans ?_
  unfold lapseClient
  dsimp only
  split
  · exact (placeAnswer_quiet (r := .finish) lapsed _).pieces
  · exact finishPiece_pieces lapsed

theorem takeLowestNotice_pieces (s : State) : Pieces s (takeLowestNotice s) := by
  unfold takeLowestNotice
  split
  swap
  · exact .refl s
  next engine =>
  simp only [engineOpen, Bool.and_eq_true, decide_eq_true_eq] at engine
  split
  swap
  · exact .refl s
  next k others lowest =>
  have begun : Pieces s { settleLease s with engine := .working .finish } :=
    (Piece.settle s).pieces.trans (Quiet.pieces ⟨rfl, by simp [heldClose, engine.1], .inl rfl, .inl rfl, .inl rfl⟩)
  have pending : k ∈ ({ settleLease s with engine := .working .finish } : State).lapsePending := by
    show k ∈ (settleLease s).lapsePending
    rw [lowest]; exact List.mem_cons_self
  refine begun.trans ?_
  unfold takeNotice
  dsimp only
  split
  · next state => exact lapseClient_pieces rfl pending (.inl state)
  · next state => exact lapseClient_pieces rfl pending (.inr state)
  all_goals
    next state =>
    exact (Piece.ignore (k := k) (s := { settleLease s with engine := .working .finish })
      ⟨fun e => (nomatch e.symm.trans state), fun e => (nomatch e.symm.trans state)⟩).pieces.trans (finishPiece_pieces rfl)

theorem takeApplication_pieces (s : State) : Pieces s (takeApplication s) := by
  unfold takeApplication
  split_ifs with taken working
  · have begun : Pieces s { settleLease s with engine := .working .application } :=
      (Piece.settle s).pieces.trans (Quiet.pieces ⟨rfl, by simp [heldClose, taken.1], .inl rfl, .inl rfl, .inl rfl⟩)
    exact begun.trans (applyNext_pieces rfl)
  · exact applyNext_pieces (by simp [heldClose, working])
  · exact .refl s

theorem goOn_pieces (s : State) : Pieces s (goOn s) := by
  obtain ⟨w, e⟩ | ⟨k, tag, parks, w, e⟩ | ⟨w, e⟩ | ⟨-, e⟩ := goOn_cases s <;> rw [e]
  · exact finishPiece_pieces (by simp [heldClose, w])
  · exact closeTail_pieces tag (.inl (by simp [heldClose, w]))
  · exact applyNext_pieces (by simp [heldClose, w])
  · exact .refl s

theorem placeHeld_pieces (s : State) : Pieces s (placeHeld s) := by
  obtain ⟨a, r, e, h⟩ | ⟨-, h⟩ := placeHeld_cases s <;> rw [h]
  · exact (placeAnswer_quiet (by cases r <;> simp [heldClose, waitingClose, e]) a).pieces
  · exact .refl s

/-- Every command of the engine is a chain of operations. -/
theorem exec_pieces {c : Instr} {s t : State} (engine : c.agent = .requestEngine) (h : exec c s = .next t) :
    Pieces s t := by
  have high {f : State → State} (work : Pieces s (f s)) (g : whileHigh f s = .next t) : Pieces s t :=
    whileHigh_rel (.refl s) work g
  cases c with
  | malformedMessage =>
    refine high ?_ h
    unfold runMalformed
    split
    · exact .refl s
    · next m u take =>
      obtain ⟨begun, engine, -⟩ := takeRequest_pieces take
      exact begun.trans (placeAnswer_quiet (r := .finish) (by simp [heldClose, waitingClose, engine]) _).pieces
  | create => exact high (runRacing_pieces ownCreate_pieces) h
  | edit => exact high (runRacing_pieces ownEdit_pieces) h
  | retire => exact high (runRacing_pieces ownRetire_pieces) h
  | restack => exact high (runRacing_pieces ownRestack_pieces) h
  | discard =>
    exact high (runRacing_pieces fun m h u asked => (Piece.discard h.client asked.notHeld).pieces.trans
      (answerRequest_pieces (effect_notHeld (by simp) asked.notHeld) _ _ _)) h
  | publish => exact high (runRacing_pieces ownPublish_pieces) h
  | renew => exact high (runRacing_pieces fun m h u asked => answerRequest_pieces asked.notHeld _ _ _) h
  | queryRegion => exact high (runRacing_pieces ownQueryRegion_pieces) h
  | queryClient race => exact high (runQueryClient_pieces race s) h
  | resume race => exact high (runRacing_pieces ownResume_pieces) h
  | openClient race => exact high (runRacing_pieces ownOpenClient_pieces) h
  | closeClient race => exact high (runRacing_pieces ownCloseClient_pieces) h
  | clearAll race => exact high (runRacing_pieces ownClearAll_pieces) h
  | setPanel => exact high (runRacing_pieces ownSetPanel_pieces) h
  | heldAnswerPlacement =>
    exact high (f := fun s => goOn (placeHeld s)) ((placeHeld_pieces s).trans (goOn_pieces _)) h
  | lapseNotice => exact high (takeLowestNotice_pieces s) h
  | copyEndApplication => exact high (takeApplication_pieces s) h
  | _ => cases engine

end Sys2Proof.Machine
end

section
/-! PROOF. The Region Table beside the client records: owned counts, open owners, and creation orders without gaps (R2, R8, R21,
R24). Creation orders are handled as positions: a record's order is one more than the number of records before it. -/

namespace Sys2Proof.Machine

/-! ### Counting records -/

theorem length_filter_nodup {α : Type} [DecidableEq α] {l : List α} (nodup : l.Nodup) (p : α → Bool) :
    (l.filter p).length = (l.toFinset.filter fun i => p i = true).card := by
  rw [← List.toFinset_filter, List.toFinset_card_of_nodup (nodup.filter p)]

theorem length_filter_regions (p : RegionId → Bool) :
    ((List.finRange 64).filter p).length = (Finset.univ.filter fun i => p i = true).card := by
  rw [length_filter_nodup (List.nodup_finRange 64), List.toFinset_finRange]

theorem ownedRecords_eq (s : State) (k : ClientId) :
    ownedRecords s k = (Finset.univ.filter fun i => regionOwner (s.region i) = some k).card := by
  unfold ownedRecords State.idsWhere
  rw [length_filter_regions]
  simp

/-! ### The agreement -/

/-- The Region Table and the client records agree: the clauses of `OwnershipHolds` and `StagingHolds` that speak of regions. -/
structure RegionsAgree (s : State) : Prop where
  counts : ∀ k, (s.client k).owned = ownedRecords s k
  closedOwnsNone : ∀ i k, regionOwner (s.region i) = some k → (s.client k).state ≠ .closed
  reservedOpen : ∀ i k, isReservedOf k (s.region i) = true →
    (s.client k).state = .active ∨ (s.client k).state = .publishing
  stagedOpen : ∀ i k, isStagedOf k (s.region i) = true →
    (s.client k).state = .active ∨ (s.client k).state = .publishing
  orders : ∀ i r, s.region i = .reserved r →
    1 ≤ r.order ∧ r.order ≤ ((List.finRange 64).filter fun j => isReservedOf r.owner (s.region j)).length
  distinct : ∀ i j r q, s.region i = .reserved r → s.region j = .reserved q → r.owner = q.owner → r.order = q.order → i = j

/-- A client may have staging while it is ACTIVE or PUBLISHING (R2). -/
def isOpen (c : Client) : Prop :=
  c.state = .active ∨ c.state = .publishing

/-- The owner and creation order of a RESERVED record (R8). -/
def reservedSlot : Region → Option (ClientId × Nat)
  | .reserved g => some (g.owner, g.order)
  | _ => none

theorem reservedSlot_eq_some {r : Region} {k : ClientId} {n : Nat} :
    reservedSlot r = some (k, n) ↔ ∃ g, r = .reserved g ∧ g.owner = k ∧ g.order = n := by
  cases r <;> simp [reservedSlot]

theorem isReservedOf_eq_isSome (k : ClientId) (r : Region) :
    isReservedOf k r = (reservedSlot r).any fun p => decide (p.1 = k) := by
  cases r <;> rfl

/-- The records of a client that are RESERVED. -/
def reservedIds (k : ClientId) (s : State) : Finset RegionId :=
  Finset.univ.filter fun i => isReservedOf k (s.region i) = true

/-- The RESERVED records of one owner with a lower creation order. -/
def earlierIds (g : ReservedRegion) (s : State) : Finset RegionId :=
  Finset.univ.filter fun i => precedes g (s.region i) = true

theorem precedes_iff {g : ReservedRegion} {r : Region} :
    precedes g r = true ↔ ∃ q, r = .reserved q ∧ q.owner = g.owner ∧ q.order < g.order := by
  cases r <;> simp [precedes]

theorem mem_reservedIds {k : ClientId} {s : State} {i : RegionId} :
    i ∈ reservedIds k s ↔ ∃ q, s.region i = .reserved q ∧ q.owner = k := by
  simp [reservedIds, isReservedOf_iff]

theorem mem_earlierIds {g : ReservedRegion} {s : State} {i : RegionId} :
    i ∈ earlierIds g s ↔ ∃ q, s.region i = .reserved q ∧ q.owner = g.owner ∧ q.order < g.order := by
  simp [earlierIds, precedes_iff]

theorem length_reserved (k : ClientId) (s : State) :
    ((List.finRange 64).filter fun j => isReservedOf k (s.region j)).length = (reservedIds k s).card :=
  length_filter_regions _

/-- A record's creation order is one more than the number of records before it (R8). -/
theorem RegionsAgree.order_eq {s : State} (agree : RegionsAgree s) {i : RegionId} {g : ReservedRegion}
    (reserved : s.region i = .reserved g) : g.order = 1 + (earlierIds g s).card := by
  have injective : Set.InjOn (fun j => creationOrder (s.region j)) (reservedIds g.owner s) := by
    intro a ha b hb e
    obtain ⟨x, hx, ox⟩ := mem_reservedIds.mp ha
    obtain ⟨y, hy, oy⟩ := mem_reservedIds.mp hb
    exact agree.distinct a b x y hx hy (ox.trans oy.symm) (by simpa [hx, hy, creationOrder] using e)
  have range : (reservedIds g.owner s).image (fun j => creationOrder (s.region j)) =
      Finset.Icc 1 (reservedIds g.owner s).card := by
    refine Finset.eq_of_subset_of_card_le (fun n hn => ?_) (by simp [Finset.card_image_of_injOn injective])
    obtain ⟨j, hj, rfl⟩ := Finset.mem_image.mp hn
    obtain ⟨x, hx, ox⟩ := mem_reservedIds.mp hj
    have bounds := agree.orders j x hx
    rw [ox, length_reserved] at bounds
    simpa [hx, creationOrder] using bounds
  have bounds := agree.orders i g reserved
  rw [length_reserved] at bounds
  have before : earlierIds g s = (reservedIds g.owner s).filter fun j => creationOrder (s.region j) < g.order := by
    ext j
    rw [Finset.mem_filter, mem_earlierIds, mem_reservedIds]
    cases s.region j <;> simp [creationOrder]
  have image : (earlierIds g s).image (fun j => creationOrder (s.region j)) = Finset.Ico 1 g.order := by
    rw [before, ← Finset.filter_image (f := fun j => creationOrder (s.region j)) (p := fun n => n < g.order), range]
    ext n
    simp only [Finset.mem_filter, Finset.mem_Icc, Finset.mem_Ico]
    omega
  have count : (earlierIds g s).card = g.order - 1 := by
    have injective' : Set.InjOn (fun j => creationOrder (s.region j)) (earlierIds g s) := by
      rw [before]; exact injective.mono fun j hj => (Finset.mem_filter.mp hj).1
    rw [← Finset.card_image_of_injOn injective', image]
    simp
  omega

/-! ### Changes that keep it -/

/-- Changes that free no record: owners stay, a RESERVED record keeps its order or becomes LIVE with all of its owner's, the
owned counts stay, and owners are still open. -/
theorem RegionsAgree.of_shape {s t : State} (agree : RegionsAgree s) (keep : ClientId → Bool)
    (owner : ∀ i, regionOwner (t.region i) = regionOwner (s.region i))
    (slot : ∀ i, reservedSlot (t.region i) = (reservedSlot (s.region i)).filter fun p => keep p.1)
    (owned : ∀ k, (t.client k).owned = (s.client k).owned)
    (closed : ∀ i k, regionOwner (s.region i) = some k → (t.client k).state ≠ .closed)
    (opened : ∀ i k, isReservedOf k (t.region i) = true ∨ isStagedOf k (t.region i) = true → isOpen (t.client k)) :
    RegionsAgree t := by
  have back {i : RegionId} {r : ReservedRegion} (h : t.region i = .reserved r) :
      keep r.owner = true ∧ ∃ q, s.region i = .reserved q ∧ q.owner = r.owner ∧ q.order = r.order := by
    have e := (slot i).symm.trans (reservedSlot_eq_some.mpr ⟨r, h, rfl, rfl⟩)
    obtain ⟨e, kept⟩ := Option.filter_eq_some_iff.mp e
    exact ⟨kept, reservedSlot_eq_some.mp e⟩
  refine ⟨fun k => ?_, fun i k h => closed i k (by rwa [← owner]), fun i k h => opened i k (.inl h),
    fun i k h => opened i k (.inr h), fun i r h => ?_, fun i j r q hr hq o n => ?_⟩
  · rw [owned, agree.counts, ownedRecords_eq, ownedRecords_eq]
    simp only [owner]
  · obtain ⟨kept, q, hq, o, n⟩ := back h
    have bounds := agree.orders i q hq
    rw [o, n] at bounds
    have same (j : RegionId) : isReservedOf r.owner (t.region j) = isReservedOf r.owner (s.region j) := by
      rw [isReservedOf_eq_isSome, isReservedOf_eq_isSome, slot]
      cases e : reservedSlot (s.region j) with
      | none => rfl
      | some p => by_cases own : p.1 = r.owner <;> by_cases kp : keep p.1 <;> simp_all
    simpa only [same] using bounds
  · obtain ⟨-, r', hr', ro, rn⟩ := back hr
    obtain ⟨-, q', hq', qo, qn⟩ := back hq
    exact agree.distinct i j r' q' hr' hq' (by rw [ro, qo, o]) (by rw [rn, qn, n])

/-- A RESERVED record that stays keeps its owner, and its order counts the records before it that stay (R8). -/
theorem RegionsAgree.reserved_of_freeRecords {s : State} (agree : RegionsAgree s) {ids : List RegionId} (nodup : ids.Nodup)
    {i : RegionId} {r : ReservedRegion} (h : (Machine.freeRecords ids s).region i = .reserved r) :
    i ∉ ids ∧ ∃ g, s.region i = .reserved g ∧ r.owner = g.owner
      ∧ r.order = 1 + (earlierIds g s \ ids.toFinset).card := by
  rw [region_freeRecords] at h
  split_ifs at h with freed
  cases e : s.region i with
  | free => rw [e] at h; cases h
  | live q => rw [e] at h; cases h
  | reserved g =>
    rw [e, closeUpOrder_reserved] at h
    cases h
    refine ⟨freed, g, rfl, rfl, ?_⟩
    have total := agree.order_eq e
    have lost : (ids.filter fun j => precedes g (s.region j)).length = (ids.toFinset ∩ earlierIds g s).card := by
      rw [length_filter_nodup nodup]
      exact congrArg Finset.card (Finset.ext fun j => by simp [earlierIds])
    have le := Finset.card_le_card (Finset.inter_subset_right (s₁ := ids.toFinset) (s₂ := earlierIds g s))
    show g.order - (ids.filter fun j => precedes g (s.region j)).length = _
    rw [lost, Finset.card_sdiff]
    omega

/-- A record with a lower order has fewer records before it that stay, when it stays itself. -/
theorem card_earlier_lt {s : State} {ids : Finset RegionId} {i : RegionId} {r q : ReservedRegion}
    (reserved : s.region i = .reserved r) (kept : i ∉ ids) (owner : r.owner = q.owner) (less : r.order < q.order) :
    (earlierIds r s \ ids).card < (earlierIds q s \ ids).card := by
  have self : i ∉ earlierIds r s := fun h => by
    obtain ⟨x, hx, -, lt⟩ := mem_earlierIds.mp h
    rw [reserved] at hx
    cases hx
    omega
  refine Finset.card_lt_card (Finset.ssubset_iff_of_subset (fun m hm => ?_) |>.mpr ⟨i, ?_, ?_⟩)
  · obtain ⟨before, stays⟩ := Finset.mem_sdiff.mp hm
    obtain ⟨p, hp, own, lt⟩ := mem_earlierIds.mp before
    exact Finset.mem_sdiff.mpr ⟨mem_earlierIds.mpr ⟨p, hp, own.trans owner, lt.trans less⟩, stays⟩
  · exact Finset.mem_sdiff.mpr ⟨mem_earlierIds.mpr ⟨r, reserved, owner, less⟩, kept⟩
  · exact fun h => self (Finset.mem_sdiff.mp h).1

theorem ownedRecords_freeRecords (s : State) (ids : List RegionId) (k : ClientId) :
    ownedRecords (freeRecords ids s) k =
      ((Finset.univ.filter fun i => regionOwner (s.region i) = some k) \ ids.toFinset).card := by
  rw [ownedRecords_eq]
  refine congrArg Finset.card (Finset.ext fun i => ?_)
  simp only [region_freeRecords, Finset.mem_filter, Finset.mem_univ, true_and, Finset.mem_sdiff, List.mem_toFinset]
  split_ifs with freed <;> simp [freed]

/-- Records become FREE: the owned counts fall and the creation orders close up with them (R8, R24). -/
theorem RegionsAgree.freeRecords {s : State} (agree : RegionsAgree s) {ids : List RegionId} (nodup : ids.Nodup) :
    RegionsAgree (freeRecords ids s) := by
  have stays {i : RegionId} {p : Region → Bool} (free : p .free = false)
      (same : ∀ r, p (closeUpOrder s ids r) = p r) (h : p ((Machine.freeRecords ids s).region i) = true) :
      p (s.region i) = true := by
    rw [region_freeRecords] at h
    split_ifs at h with freed
    · rw [free] at h; cases h
    · rwa [same] at h
  have state (k : ClientId) : ((Machine.freeRecords ids s).client k).state = (s.client k).state := by
    rw [client_freeRecords]
  refine ⟨fun k => ?_, fun i k h => ?_, fun i k h => ?_, fun i k h => ?_, fun i r h => ?_, fun i j r q hr hq o n => ?_⟩
  · have lost : (ids.filter fun i => decide (regionOwner (s.region i) = some k)).length =
        (ids.toFinset ∩ Finset.univ.filter fun i => regionOwner (s.region i) = some k).card := by
      rw [length_filter_nodup nodup]
      exact congrArg Finset.card (Finset.ext fun i => by simp)
    rw [client_freeRecords, ownedRecords_freeRecords, Finset.card_sdiff, ← lost, ← ownedRecords_eq, ← agree.counts]
  · rw [state]
    refine agree.closedOwnsNone i k ?_
    simpa using stays (p := fun r => decide (regionOwner r = some k)) rfl (by simp) (by simpa using h)
  · rw [state]
    exact agree.reservedOpen i k (stays rfl (by simp) h)
  · rw [state]
    exact agree.stagedOpen i k (stays rfl (by simp) h)
  · obtain ⟨kept, g, hg, owner, order⟩ := agree.reserved_of_freeRecords nodup h
    have own : earlierIds g s \ ids.toFinset ⊂ reservedIds r.owner (Machine.freeRecords ids s) := by
      refine Finset.ssubset_iff_of_subset (fun m hm => ?_) |>.mpr ⟨i, mem_reservedIds.mpr ⟨r, h, rfl⟩, fun hm => ?_⟩
      · obtain ⟨before, stay⟩ := Finset.mem_sdiff.mp hm
        obtain ⟨p, hp, own, -⟩ := mem_earlierIds.mp before
        rw [List.mem_toFinset] at stay
        rw [reservedIds, Finset.mem_filter, region_freeRecords, if_neg stay, isReservedOf_closeUpOrder, hp]
        simp [own, owner]
      · obtain ⟨p, hp, -, lt⟩ := mem_earlierIds.mp (Finset.mem_sdiff.mp hm).1
        rw [hg] at hp
        cases hp
        omega
    rw [length_reserved, order]
    have := Finset.card_lt_card own
    omega
  · obtain ⟨keptr, r', hr', ro, rn⟩ := agree.reserved_of_freeRecords nodup hr
    obtain ⟨keptq, q', hq', qo, qn⟩ := agree.reserved_of_freeRecords nodup hq
    have owner : r'.owner = q'.owner := by rw [← ro, ← qo, o]
    refine agree.distinct i j r' q' hr' hq' owner ?_
    by_contra ne
    obtain less | less := Nat.lt_or_gt_of_ne ne
    · have := card_earlier_lt (ids := ids.toFinset) hr' (by simpa using keptr) owner less
      omega
    · have := card_earlier_lt (ids := ids.toFinset) hq' (by simpa using keptq) owner.symm less
      omega

end Sys2Proof.Machine
end

section
/-! PROOF. The Parked List beside the client records, said client by client: what each client's record must be, from whether a
publish or a close of it is parked and whether a close of it waits (R21, R31, R35, R85). -/

namespace Sys2Proof.Machine

/-! ### The Parked List -/

/-- A publish of client `k` is among the entries. -/
def publishParked (k : ClientId) (l : List ParkedEntry) : Prop := ∃ tag, ParkedEntry.publish k tag ∈ l

/-- A close of client `k` is among the entries. -/
def closeParked (k : ClientId) (l : List ParkedEntry) : Prop := ∃ tag, ParkedEntry.close k tag ∈ l

/-- A clear is among the entries. -/
def clearAmong (l : List ParkedEntry) : Prop := ∃ tag, ParkedEntry.clearAll tag ∈ l

/-- A close of client `k` waits. -/
def closeHeld (k : ClientId) (s : State) : Prop := ∃ parks, heldClose s = some (k, parks)

theorem closeHeld_congr {s t : State} (h : heldClose t = heldClose s) (k : ClientId) : closeHeld k t ↔ closeHeld k s := by
  unfold closeHeld; rw [h]

theorem not_closeHeld {s : State} (h : heldClose s = none) (k : ClientId) : ¬ closeHeld k s := by
  simp [closeHeld, h]

theorem clearParked_iff (s : State) : clearParked s = true ↔ clearAmong s.parked := by
  simp only [clearParked, List.any_eq_true, clearAmong]
  constructor
  · rintro ⟨e, he, is⟩
    cases e with
    | clearAll tag => exact ⟨tag, he⟩
    | publish k tag => cases is
    | close k tag => cases is
  · rintro ⟨tag, h⟩
    exact ⟨_, h, rfl⟩

theorem mem_owners (k : ClientId) (l : List ParkedEntry) :
    k ∈ l.filterMap parkedOwner ↔ publishParked k l ∨ closeParked k l := by
  simp only [List.mem_filterMap, publishParked, closeParked]
  constructor
  · rintro ⟨e, he, own⟩
    cases e with
    | publish j tag => cases own; exact .inl ⟨tag, he⟩
    | close j tag => cases own; exact .inr ⟨tag, he⟩
    | clearAll tag => cases own
  · rintro (⟨tag, h⟩ | ⟨tag, h⟩) <;> exact ⟨_, h, rfl⟩

section

variable (k j : ClientId) (tag : Tag) (l : List ParkedEntry)

@[simp] theorem publishParked_nil : ¬ publishParked k [] := by simp [publishParked]
@[simp] theorem closeParked_nil : ¬ closeParked k [] := by simp [closeParked]

@[simp] theorem publishParked_cons (e : ParkedEntry) :
    publishParked k (e :: l) ↔ (∃ tag, e = .publish k tag) ∨ publishParked k l := by
  simp [publishParked, exists_or, eq_comm]

@[simp] theorem closeParked_cons (e : ParkedEntry) :
    closeParked k (e :: l) ↔ (∃ tag, e = .close k tag) ∨ closeParked k l := by
  simp [closeParked, exists_or, eq_comm]

@[simp] theorem publishParked_append (m : List ParkedEntry) :
    publishParked k (l ++ m) ↔ publishParked k l ∨ publishParked k m := by
  simp [publishParked, exists_or]

@[simp] theorem closeParked_append (m : List ParkedEntry) :
    closeParked k (l ++ m) ↔ closeParked k l ∨ closeParked k m := by
  simp [closeParked, exists_or]

theorem publishParked_filter :
    publishParked j (l.filter fun e => !isPublishOf k e) ↔ publishParked j l ∧ j ≠ k := by
  simp [publishParked, isPublishOf]

theorem closeParked_filter : closeParked j (l.filter fun e => !isPublishOf k e) ↔ closeParked j l := by
  simp [closeParked, isPublishOf]

end

/-- The Parked List by itself: one entry per client, a CLEAR_ALL only last (R85). -/
structure ListAgrees (l : List ParkedEntry) : Prop where
  onePerClient : (l.filterMap parkedOwner).Nodup
  clearLast : ∀ tag, ParkedEntry.clearAll tag ∉ l.dropLast

theorem ListAgrees.nil : ListAgrees [] := ⟨by simp, by simp⟩

theorem ListAgrees.append {l : List ParkedEntry} (agree : ListAgrees l) (noClear : ¬ clearAmong l) {e : ParkedEntry}
    (new : ∀ k, parkedOwner e = some k → ¬ publishParked k l ∧ ¬ closeParked k l) : ListAgrees (l ++ [e]) := by
  refine ⟨?_, fun tag => by rw [List.dropLast_concat]; exact fun h => noClear ⟨tag, h⟩⟩
  rw [List.filterMap_append]
  have one : ([e].filterMap parkedOwner).Nodup := by cases e <;> simp [parkedOwner, List.filterMap_cons]
  refine agree.onePerClient.append one fun k hk he => ?_
  have own : parkedOwner e = some k := by simpa using he
  have := (mem_owners k l).mp hk
  have := new k own
  tauto

theorem ListAgrees.filter {l : List ParkedEntry} (agree : ListAgrees l) (p : ParkedEntry → Bool) : ListAgrees (l.filter p) := by
  refine ⟨agree.onePerClient.sublist ((List.filter_sublist).filterMap _), fun tag h => ?_⟩
  obtain rfl | ⟨init, last, rfl⟩ := l.eq_nil_or_concat'
  · simp at h
  · refine agree.clearLast tag ?_
    rw [List.dropLast_concat]
    rw [List.filter_append] at h
    by_cases kept : p last = true
    · rw [List.filter_cons_of_pos kept, List.filter_nil, List.dropLast_concat] at h
      exact List.mem_of_mem_filter h
    · rw [List.filter_cons_of_neg kept, List.filter_nil, List.append_nil] at h
      exact List.mem_of_mem_filter (List.mem_of_mem_dropLast h)

/-- The entry at the head has its client's only entry, and a CLEAR_ALL there is the whole list. -/
theorem ListAgrees.of_cons {e : ParkedEntry} {l : List ParkedEntry} (agree : ListAgrees (e :: l)) :
    ListAgrees l ∧ (∀ k, parkedOwner e = some k → ¬ publishParked k l ∧ ¬ closeParked k l)
      ∧ ∀ tag, e = .clearAll tag → l = [] := by
  refine ⟨⟨agree.onePerClient.sublist ((List.sublist_cons_self e l).filterMap _), fun tag h => ?_⟩, fun k own => ?_, ?_⟩
  · refine agree.clearLast tag ?_
    cases l with
    | nil => simp at h
    | cons a l => exact List.mem_cons_of_mem _ h
  · have once := agree.onePerClient
    rw [List.filterMap_cons_some own, List.nodup_cons, mem_owners] at once
    tauto
  · rintro tag rfl
    cases l with
    | nil => rfl
    | cons a l => exact absurd List.mem_cons_self (agree.clearLast tag)

/-! ### One client -/

/-- What the record of a client must be, from whether a publish or a close of it is parked and a close of it waits. -/
structure ClientAgrees (publish close held : Prop) (c : Client) : Prop where
  terms : c.terms = none ↔ c.state = .closed
  moves : c.state = .closed ∨ c.state = .lapsed ∨ c.state = .closing → c.moves = []
  publishing : c.state = .publishing ↔ publish ∨ held
  closing : c.state = .closing ↔ close
  flagged : publish → c.parkedEntry = true
  flag : c.parkedEntry = true → publish ∨ close
  held : held → ¬ publish ∧ c.moves = []

/-- The record of client `k` in a state is what it must be. -/
def PartyAgrees (s : State) (k : ClientId) : Prop :=
  ClientAgrees (publishParked k s.parked) (closeParked k s.parked) (closeHeld k s) (s.client k)

/-- A record that differs in its owned count, and in moves that were none only if they are none, agrees as before. -/
theorem ClientAgrees.congr {p q h p' q' h' : Prop} {c d : Client} (agree : ClientAgrees p q h c) (publish : p' ↔ p)
    (close : q' ↔ q) (held : h' ↔ h) (state : d.state = c.state) (terms : d.terms = c.terms)
    (flag : d.parkedEntry = c.parkedEntry) (moves : c.moves = [] → d.moves = []) : ClientAgrees p' q' h' d := by
  refine ⟨?_, ?_, ?_, ?_, ?_, ?_, ?_⟩ <;> simp only [publish, close, held, state, terms, flag]
  · exact agree.terms
  · exact fun e => moves (agree.moves e)
  · exact agree.publishing
  · exact agree.closing
  · exact agree.flagged
  · exact agree.flag
  · exact fun e => ⟨(agree.held e).1, moves (agree.held e).2⟩

section

variable {p q h : Prop} {c : Client}

/-- A client that is neither PUBLISHING nor CLOSING has nothing parked. -/
theorem ClientAgrees.nothing (agree : ClientAgrees p q h c) (publishing : c.state ≠ .publishing) (closing : c.state ≠ .closing) :
    ¬ p ∧ ¬ q ∧ ¬ h ∧ c.parkedEntry = false := by
  have pub := agree.publishing.not.mp publishing
  have cl := agree.closing.not.mp closing
  have flag := agree.flag
  cases e : c.parkedEntry <;> tauto

/-- A client with nothing parked, in a state that needs nothing parked. -/
theorem ClientAgrees.of_nothing (none : ¬ p ∧ ¬ q ∧ ¬ h) (flag : c.parkedEntry = false) (publishing : c.state ≠ .publishing)
    (closing : c.state ≠ .closing) (terms : c.terms = .none ↔ c.state = .closed)
    (moves : c.state = .closed ∨ c.state = .lapsed → c.moves = []) : ClientAgrees p q h c := by
  obtain ⟨np, nq, nh⟩ := none
  refine ⟨terms, fun st => ?_, ?_, ?_, fun p => absurd p np, fun f => ?_, fun h => absurd h nh⟩
  · obtain st | st | st := st
    · exact moves (.inl st)
    · exact moves (.inr st)
    · exact absurd st closing
  · exact ⟨fun e => absurd e publishing, fun e => e.elim (fun p => absurd p np) fun h => absurd h nh⟩
  · exact ⟨fun e => absurd e closing, fun q => absurd q nq⟩
  · rw [flag] at f; cases f

theorem ClientAgrees.of_closed (none : ¬ p ∧ ¬ q ∧ ¬ h) : ClientAgrees p q h closedClient :=
  .of_nothing none rfl nofun nofun ⟨fun _ => rfl, fun _ => rfl⟩ fun _ => rfl

theorem ClientAgrees.not_close_of_publishing (agree : ClientAgrees p q h c) (publishing : c.state = .publishing) : ¬ q := by
  have closing := agree.closing
  simpa [publishing] using closing

end

/-! ### The whole agreement -/

/-- A close that waits has left its target nothing staged, and no CLEAR_ALL is parked (R32). -/
def HeldDone (s : State) : Prop :=
  ∀ k, closeHeld k s → (∀ i, isReservedOf k (s.region i) = false) ∧ (∀ i, isStagedOf k (s.region i) = false)
    ∧ ¬ clearAmong s.parked

theorem recordsHold_iff (s : State) :
    RecordsHold s ↔ RegionsAgree s ∧ ListAgrees s.parked ∧ (∀ k, PartyAgrees s k) ∧ HeldDone s := by
  constructor
  · rintro ⟨⟨one, last, pub, cl, target⟩, ⟨counts, closed, reserved, none⟩,
      ⟨staged, orders, distinct, terms, moves, flag, publishing, closing, heldOpen, heldDone⟩⟩
    refine ⟨⟨counts, closed, reserved, staged, orders, distinct⟩, ⟨one, last⟩, fun k => ?_, ?_⟩
    · refine ⟨terms k, moves k, ⟨fun st => ?_, ?_⟩, ⟨fun st => ?_, fun ⟨tag, h⟩ => cl k tag h⟩, fun ⟨tag, h⟩ => (pub k tag h).2,
        fun st => (mem_owners k _).mp (flag k st), ?_⟩
      · obtain parked | held := publishing k st
        · obtain p | ⟨tag, h⟩ := (mem_owners k _).mp parked
          · exact .inl p
          · rw [cl k tag h] at st; cases st
        · obtain ⟨⟨j, parks⟩, e, rfl⟩ := Option.map_eq_some_iff.mp held
          exact .inr ⟨parks, e⟩
      · rintro (⟨tag, h⟩ | ⟨parks, h⟩)
        · exact (pub k tag h).1
        · exact heldOpen k parks h
      · obtain ⟨tag, h⟩ | c := (mem_owners k _).mp (closing k st)
        · rw [(pub k tag h).1] at st; cases st
        · exact c
      · rintro ⟨parks, h⟩
        exact ⟨fun p => (target k parks h).1 ((mem_owners k _).mpr (.inl p)), (heldDone k parks h).2⟩
    · rintro k ⟨parks, h⟩
      exact ⟨none k parks h, (heldDone k parks h).1, fun ⟨tag, c⟩ => (target k parks h).2 tag c⟩
  · rintro ⟨regions, list, clients, held⟩
    have heldParty {k : ClientId} {parks : Bool} (h : heldClose s = some (k, parks)) :
        (s.client k).state = .publishing := (clients k).publishing.mpr (.inr ⟨parks, h⟩)
    refine ⟨⟨list.onePerClient, list.clearLast, fun k tag h => ?_, fun k tag h => (clients k).closing.mpr ⟨tag, h⟩,
        fun k parks h => ⟨fun own => ?_, fun tag c => (held k ⟨parks, h⟩).2.2 ⟨tag, c⟩⟩⟩,
      ⟨regions.counts, regions.closedOwnsNone, regions.reservedOpen, fun k parks h => (held k ⟨parks, h⟩).1⟩,
      ⟨regions.stagedOpen, regions.orders, regions.distinct, fun k => (clients k).terms, fun k => (clients k).moves,
        fun k f => (mem_owners k _).mpr ((clients k).flag f), fun k st => ?_,
        fun k st => (mem_owners k _).mpr (.inr ((clients k).closing.mp st)), fun k parks h => heldParty h,
        fun k parks h => ⟨(held k ⟨parks, h⟩).2.1, ((clients k).held ⟨parks, h⟩).2⟩⟩⟩
    · exact ⟨(clients k).publishing.mpr (.inl ⟨tag, h⟩), (clients k).flagged ⟨tag, h⟩⟩
    · obtain p | c := (mem_owners k _).mp own
      · exact ((clients k).held ⟨parks, h⟩).1 p
      · exact (clients k).not_close_of_publishing (heldParty h) c
    · obtain p | ⟨parks, h⟩ := (clients k).publishing.mp st
      · exact .inl ((mem_owners k _).mpr (.inl p))
      · exact .inr (by rw [h]; rfl)

end Sys2Proof.Machine
end

section
/-! PROOF. What the operations of the engine leave alone: committed changes touch the three tables only, and every operation
touches the engine's own fields, the tables and the Lease Monitor only. -/

namespace Sys2Proof.Machine

/-! ### Changes of the three tables -/

/-- Nothing but the Region Table, the band lists and the Client Table differs. -/
def tableFrame (s t : State) : Prop :=
  t = { s with regions := t.regions, bands := t.bands, clients := t.clients }

theorem tableFrame_refl (s : State) : tableFrame s s := by
  cases s; rfl

theorem tableFrame_trans {s t u : State} (h : tableFrame s t) (g : tableFrame t u) : tableFrame s u := by
  unfold tableFrame at *
  rw [h] at g
  exact g

theorem updClient_tables (k : ClientId) (f : Client → Client) (s : State) : tableFrame s (s.updClient k f) := by
  cases s; rfl

theorem setRegion_tables (i : RegionId) (r : Region) (s : State) : tableFrame s (s.setRegion i r) := by
  cases s; rfl

theorem mapRegions_tables (f : RegionId → Region → Region) (s : State) : tableFrame s (s.mapRegions f) := by
  cases s; rfl

theorem freeRecords_tables (ids : List RegionId) (s : State) : tableFrame s (freeRecords ids s) := by
  cases s; rfl

theorem bands_tables (b : Bands) (s : State) : tableFrame s { s with bands := b } := by
  cases s; rfl

theorem discardStaging_tables (k : ClientId) (s : State) : tableFrame s (discardStaging k s) :=
  tableFrame_trans (tableFrame_trans (freeRecords_tables _ s) (mapRegions_tables _ _)) (updClient_tables _ _ _)

theorem reserveRecord_tables (i : RegionId) (k : ClientId) (p : Part) (s : State) : tableFrame s (reserveRecord i k p s) :=
  tableFrame_trans (setRegion_tables _ _ s) (updClient_tables _ _ _)

theorem retireReserved_tables (i : RegionId) (k : ClientId) (s : State) : tableFrame s (retireReserved i k s) :=
  tableFrame_trans (freeRecords_tables _ s) (updClient_tables _ _ _)

theorem insertRegion_tables (eff : Frame) (s : State) (i : RegionId) : tableFrame s (insertRegion eff s i) := by
  unfold insertRegion
  split
  · exact tableFrame_trans (setRegion_tables i _ s) (bands_tables _ _)
  · exact tableFrame_refl s

theorem insertionStep_tables (ids : List RegionId) (eff : Frame) (s : State) : tableFrame s (insertionStep ids eff s) := by
  induction ids generalizing s with
  | nil => exact tableFrame_refl s
  | cons i ids ih => exact tableFrame_trans (insertRegion_tables eff s i) (ih _)

theorem moveStep_tables (k : ClientId) (s : State) : tableFrame s (moveStep k s) :=
  tableFrame_trans (bands_tables _ s) (updClient_tables _ _ _)

theorem leavePublishing_tables (k : ClientId) (s : State) : tableFrame s (leavePublishing k s) :=
  updClient_tables _ _ s

theorem publishSteps_tables (k : ClientId) (s : State) : tableFrame s (publishSteps k s).1 := by
  have retired : tableFrame s (retireStep k s) := freeRecords_tables _ s
  have edited := tableFrame_trans retired (mapRegions_tables (fun _ r => commitStaged k r) (retireStep k s))
  have inserted := tableFrame_trans edited
    (insertionStep_tables (createdInOrder k (editStep k (retireStep k s))) (effectiveFrame s) _)
  exact tableFrame_trans (tableFrame_trans inserted (moveStep_tables k _))
    (tableFrame_trans (mapRegions_tables _ _) (leavePublishing_tables k _))

theorem applyPublish_tables (k : ClientId) (s : State) : tableFrame s (applyPublish k s).1 := by
  unfold applyPublish
  split
  · exact leavePublishing_tables k s
  · exact publishSteps_tables k s

theorem applyClose_tables (k : ClientId) (s : State) : tableFrame s (applyClose k s) :=
  tableFrame_trans (freeRecords_tables _ s) (updClient_tables _ _ _)

theorem tableFrame_heldClose {s t : State} (h : tableFrame s t) : heldClose t = heldClose s :=
  heldClose_congr (by rw [h])

theorem tableFrame_parked {s t : State} (h : tableFrame s t) : t.parked = s.parked := by
  rw [h]

/-! ### The Client Table after them -/

@[simp] theorem insertRegion_clients (eff : Frame) (s : State) (i : RegionId) : (insertRegion eff s i).clients = s.clients := by
  unfold insertRegion; split <;> simp

@[simp] theorem insertionStep_clients (ids : List RegionId) (eff : Frame) (s : State) :
    (insertionStep ids eff s).clients = s.clients := by
  induction ids generalizing s with
  | nil => rfl
  | cons i ids ih => exact (ih _).trans (insertRegion_clients eff s i)

theorem client_publishSteps (k j : ClientId) (s : State) :
    (publishSteps k s).1.client j =
      if j = k then { (retireStep k s).client j with state := .active, moves := [], parkedEntry := false }
      else (retireStep k s).client j := by
  have moved : (publishSteps k s).1.client j =
      (leavePublishing k (moveStep k (insertedState k s))).client j := by
    simp only [publishSteps, leavePublishing, client_updClient, stampStep, client_mapRegions, insertedState]
  have before : (insertedState k s).client j = (retireStep k s).client j :=
    client_congr (by simp [insertedState, editStep]) j
  have banded (u : State) (b : Bands) : ({ u with bands := b } : State).client j = u.client j := rfl
  rw [moved]
  simp only [leavePublishing, moveStep, client_updClient, banded, before]
  split <;> rfl

theorem client_applyClose (k j : ClientId) (s : State) :
    (applyClose k s).client j = if j = k then closedClient else (freeRecords (s.idsWhere (isLiveOf k)) s).client j := by
  simp [applyClose, client_updClient]

theorem client_applyClear (s : State) (j : ClientId) : (applyClear s).client j = clearedClient j (s.client j) := by
  simp [State.client, applyClear]

theorem client_removePublish (k j : ClientId) (s : State) :
    (removePublish k s).client j = if j = k then { s.client j with parkedEntry := false } else s.client j := by
  unfold removePublish
  rw [client_updClient]
  rfl

@[simp] theorem removePublish_parked (k : ClientId) (s : State) :
    (removePublish k s).parked = s.parked.filter fun e => !isPublishOf k e := by
  simp [removePublish]

/-! ### Operations of the engine -/

/-- Nothing but the tables, the engine's own fields, its two queues and the Lease Monitor differs. -/
def engineFrame (s t : State) : Prop :=
  t = { s with
    regions := t.regions, clients := t.clients, bands := t.bands, parked := t.parked, panel := t.panel
    engine := t.engine, committedWork := t.committedWork, copyEndDue := t.copyEndDue
    counters := t.counters, lapsePending := t.lapsePending, leaseInbox := t.leaseInbox
    requests := t.requests, answers := t.answers, flags := { s.flags with leaseLapse := t.flags.leaseLapse } }

theorem engineFrame_refl (s : State) : engineFrame s s := by
  cases s; rfl

theorem engineFrame_trans {s t u : State} (h : engineFrame s t) (g : engineFrame t u) : engineFrame s u := by
  unfold engineFrame at *
  rw [h] at g
  exact g

theorem engineFrame_of_tables {s t : State} (h : tableFrame s t) : engineFrame s t := by
  unfold tableFrame at h
  unfold engineFrame
  rw [h]

theorem engineFrame_of_lease {s t : State} (h : leaseFrame s t) : engineFrame s t := by
  unfold leaseFrame at h
  unfold engineFrame
  rw [h]

theorem removePublish_engineFrame (k : ClientId) (s : State) : engineFrame s (removePublish k s) := by
  cases s; rfl

theorem askLease_frame (ms : List LeaseMsg) (s : State) : leaseFrame s (askLease ms s) := by
  cases s; rfl

theorem handLease_frame (m : LeaseMsg) (s : State) : leaseFrame s (handLease m s) := by
  cases s; rfl

theorem noticeTaken_frame (k : ClientId) (s : State) : leaseFrame s (noticeTaken k s) := by
  cases s; rfl

theorem parked_engineFrame (l : List ParkedEntry) (s : State) : engineFrame s { s with parked := l } := by
  cases s; rfl

theorem engine_engineFrame (e : Engine) (s : State) : engineFrame s { s with engine := e } := by
  cases s; rfl

theorem idle_engineFrame (s : State) : engineFrame s { s with committedWork := false, engine := .free } := by
  cases s; rfl

theorem applyClear_engineFrame (s : State) : engineFrame s (applyClear s) := by
  cases s; rfl

theorem applyEntry_engineFrame (e : ParkedEntry) (s : State) : engineFrame s (applyEntry e s).1 := by
  cases e with
  | publish k tag => exact engineFrame_of_tables (applyPublish_tables k s)
  | close k tag => exact engineFrame_of_tables (applyClose_tables k s)
  | clearAll tag => exact applyClear_engineFrame s

theorem closeBegun_engineFrame (k : ClientId) (s : State) : engineFrame s (closeBegun k s) :=
  engineFrame_trans (engineFrame_of_lease (askLease_frame _ s)) (engineFrame_of_tables (updClient_tables _ _ _))

theorem closeTail_parks (k : ClientId) (tag : Tag) (s : State) :
    closeTail k tag true s = { (closeBegun k s).updClient k fun c => { c with parkedEntry := true } with
      parked := s.parked ++ [.close k tag], engine := .free } := by
  have parked : (closeBegun k s).parked = s.parked := by simp [closeBegun]
  rw [← parked]
  rfl

theorem lapsedState_engineFrame (k : ClientId) (s : State) : engineFrame s (lapsedState k s) := by
  unfold lapsedState
  refine engineFrame_trans ?_ (engineFrame_of_tables (tableFrame_trans (discardStaging_tables k _) (updClient_tables k _ _)))
  split_ifs
  · exact removePublish_engineFrame k s
  · exact engineFrame_refl s

/-- Every operation of the engine's work touches only what `engineFrame` says. -/
theorem Piece.frame {s t : State} (h : Piece s t) : engineFrame s t := by
  cases h with
  | quiet q =>
    have frame := q.frame
    unfold engineFrame
    rw [frame]
  | settle => exact engineFrame_of_lease (settleLease_frame s)
  | decrement => exact engineFrame_of_lease (countDown_frame s)
  | claim k => exact engineFrame_of_lease (handLease_frame _ s)
  | reserve asked checks => exact engineFrame_of_tables (reserveRecord_tables _ _ _ s)
  | edit asked checks => exact engineFrame_of_tables (setRegion_tables _ _ s)
  | mark asked live own => exact engineFrame_of_tables (setRegion_tables _ _ s)
  | release asked reserved own => exact engineFrame_of_tables (retireReserved_tables _ _ s)
  | restack asked checks => exact engineFrame_of_tables (updClient_tables _ _ s)
  | discard k notHeld => exact engineFrame_of_tables (discardStaging_tables k s)
  | park asked copying => cases s; rfl
  | publish asked => exact engineFrame_of_tables (applyPublish_tables _ s)
  | pop notHeld parked => exact engineFrame_trans (parked_engineFrame _ s) (applyEntry_engineFrame _ _)
  | clear asked copying => exact applyClear_engineFrame s
  | parkClear asked copying => exact parked_engineFrame _ s
  | resume asked lapsed =>
    exact engineFrame_trans (engineFrame_of_tables (updClient_tables _ _ s)) (engineFrame_of_lease (askLease_frame _ _))
  | opening asked fields closed =>
    exact engineFrame_trans (engineFrame_of_tables (updClient_tables _ _ s)) (engineFrame_of_lease (askLease_frame _ _))
  | panel p => cases s; rfl
  | cancel tag closing parked => exact engineFrame_trans (removePublish_engineFrame _ s) (engine_engineFrame _ _)
  | closePark tag may => cases s; rfl
  | @closeNow _ k may =>
    exact engineFrame_trans (closeBegun_engineFrame k s)
      (engineFrame_trans (engineFrame_of_tables (applyClose_tables k _)) (idle_engineFrame _))
  | @lapse _ k notHeld pending opened =>
    exact engineFrame_trans (engineFrame_of_lease (noticeTaken_frame k s)) (lapsedState_engineFrame k _)
  | ignore notOpen => exact engineFrame_of_lease (noticeTaken_frame _ s)

theorem Pieces.frame {s t : State} (h : Pieces s t) : engineFrame s t :=
  h.keeps (P := engineFrame s) (fun _ _ op frame => engineFrame_trans frame op.frame) (engineFrame_refl s)

end Sys2Proof.Machine
end

section
/-! PROOF. Every operation of the engine keeps the agreement of the Region Table, the client records and the Parked List, so that
every step does (R2, R8, R21, R24, R31, R35, R85). -/

namespace Sys2Proof.Machine

/-! ### What the engine and the copy keep for each other -/

/-- The clauses of `EngineAtRest` that hold within a piece of work too. -/
structure Ready (s : State) : Prop where
  parkedWhen : s.parked ≠ [] → isCopying s = true ∨ s.copyEndDue = true
  closeWaits : ∀ k parks, heldClose s = some (k, parks) → parks = true ∧ (isCopying s = true ∨ s.copyEndDue = true)
  copyNotDue : isCopying s = true → s.copyEndDue = false

theorem EngineAtRest.ready {s : State} (rest : EngineAtRest s) : Ready s :=
  ⟨rest.parkedWhen, rest.closeWaits, rest.copyNotDue⟩

theorem isCopying_congr {s t : State} (h : t.snapState = s.snapState) : isCopying t = isCopying s := by
  unfold isCopying; rw [h]

/-- With entries that were there before, or a copy in progress, and a close that waited before, the agreement stays. -/
theorem Ready.of_le {s t : State} (ready : Ready s) (snap : t.snapState = s.snapState) (due : t.copyEndDue = s.copyEndDue)
    (parked : t.parked ≠ [] → s.parked ≠ [] ∨ isCopying s = true ∨ s.copyEndDue = true)
    (held : ∀ k parks, heldClose t = some (k, parks) → heldClose s = some (k, parks)) : Ready t := by
  have copying := isCopying_congr snap
  refine ⟨fun p => ?_, fun k parks h => ?_, ?_⟩ <;> rw [copying, due]
  · obtain p | q := parked p
    · exact ready.parkedWhen p
    · exact q
  · exact ready.closeWaits k parks (held k parks h)
  · exact ready.copyNotDue

theorem Ready.of_leaseFrame {s t : State} (frame : leaseFrame s t) (ready : Ready s) : Ready t := by
  have tables := TablesKept.of_leaseFrame frame
  exact ready.of_le (by rw [frame]) (by rw [frame]) (fun p => .inl (by rwa [← tables.parked]))
    fun k parks h => by rwa [← tables.heldClose]

theorem CloseMay.ready {k : ClientId} {parks : Bool} {s : State} (may : CloseMay k parks s) (ready : Ready s)
    (parking : parks = true) : isCopying s = true ∨ s.copyEndDue = true := by
  obtain held | ⟨-, copying, -⟩ := may
  · exact (ready.closeWaits k parks held).2
  · exact .inl (copying.trans parking)

theorem Ready.of_tables {s t : State} (frame : tableFrame s t) (ready : Ready s) : Ready t :=
  ready.of_le (by rw [frame]) (by rw [frame]) (fun p => .inl (by rwa [← tableFrame_parked frame]))
    fun k parks h => by rwa [← tableFrame_heldClose frame]

theorem applyEntry_quiets (e : ParkedEntry) (s : State) :
    (applyEntry e s).1.snapState = s.snapState ∧ (applyEntry e s).1.copyEndDue = s.copyEndDue
      ∧ (applyEntry e s).1.parked = s.parked := by
  cases e with
  | publish k tag =>
    have frame := applyPublish_tables k s
    exact ⟨(by rw [applyEntry, frame]), (by rw [applyEntry, frame]), tableFrame_parked frame⟩
  | close k tag =>
    have frame := applyClose_tables k s
    exact ⟨(by rw [applyEntry, frame]), (by rw [applyEntry, frame]), tableFrame_parked frame⟩
  | clearAll tag => exact ⟨by simp [applyEntry], by simp [applyEntry], by simp [applyEntry]⟩

/-- Every operation of the engine keeps it. -/
theorem Piece.ready {s t : State} (piece : Piece s t) (ready : Ready s) : Ready t := by
  have frame := piece.frame
  have snap : t.snapState = s.snapState := by rw [frame]
  have same := isCopying_congr snap
  have leases {u v : State} (f : leaseFrame u v) (r : Ready u) : Ready v := r.of_leaseFrame f
  have idle {u v : State} (held : heldClose v = none) : ∀ k parks, heldClose v = some (k, parks) → heldClose u = some (k, parks) :=
    fun k parks h => by rw [held] at h; cases h
  cases piece with
  | quiet q =>
    have parked : t.parked = s.parked := by rw [q.frame]
    obtain due | ⟨empty, notHeld, due⟩ := q.due
    · exact ready.of_le snap due (fun p => .inl (by rwa [← parked])) fun k parks h => by rwa [← q.held]
    · exact ⟨fun p => absurd (parked.trans empty) p, fun k parks h => absurd h (by simp [q.held, notHeld]), fun _ => due⟩
  | settle => exact leases (settleLease_frame s) ready
  | decrement => exact leases (countDown_frame s) ready
  | claim k => exact leases (handLease_frame _ s) ready
  | reserve asked checks => exact ready.of_tables (reserveRecord_tables _ _ _ s)
  | edit asked checks => exact ready.of_tables (setRegion_tables _ _ s)
  | mark asked live own => exact ready.of_tables (setRegion_tables _ _ s)
  | release asked reserved own => exact ready.of_tables (retireReserved_tables _ _ s)
  | restack asked checks => exact ready.of_tables (updClient_tables _ _ s)
  | discard k notHeld => exact ready.of_tables (discardStaging_tables k s)
  | park asked isCopying => exact ready.of_le snap (by simp [parkPublish]) (fun _ => .inr (.inl isCopying)) (idle rfl)
  | publish asked => exact ready.of_tables (applyPublish_tables _ s)
  | @pop _ e rest notHeld parked =>
    obtain ⟨-, due, -⟩ := applyEntry_quiets e { s with parked := rest }
    exact ready.of_le snap due (fun _ => .inl (by rw [parked]; simp))
      (idle (effect_notHeld (applyEntry_engine e _) notHeld))
  | clear asked copying =>
    exact ready.of_le snap (by simp) (fun p => .inl (by simpa using p)) fun k parks h => by
      rwa [heldClose_congr (s := s) (by simp)] at h
  | parkClear asked copying => exact ready.of_le snap rfl (fun _ => .inr (.inl copying)) fun k parks h => h
  | resume asked lapsed => exact leases (askLease_frame _ _) (ready.of_tables (updClient_tables _ _ s))
  | opening asked fields closed => exact leases (askLease_frame _ _) (ready.of_tables (updClient_tables _ _ s))
  | panel p => exact ready.of_le rfl rfl (fun p => .inl p) fun k parks h => h
  | cancel tag closing parked =>
    have nonempty : s.parked ≠ [] := List.ne_nil_of_mem parked
    have isCopying : Machine.isCopying s = true := by
      obtain c | d := ready.parkedWhen nonempty
      · exact c
      · rw [closing.notDue] at d; cases d
    refine ⟨fun _ => .inl (same.trans isCopying), fun k parks h => ?_, fun _ => by simpa using closing.notDue⟩
    cases h
    exact ⟨isCopying, .inl (same.trans isCopying)⟩
  | @closePark _ k tag may =>
    have due : (closeTail k tag true s).copyEndDue = s.copyEndDue := by
      rw [closeTail_parks]; simp [closeBegun]
    exact ready.of_le snap due (fun _ => .inr (may.ready ready rfl)) (idle rfl)
  | closeNow may =>
    exact ready.of_le snap (by simp [applyClose, closeBegun])
      (fun p => .inl (by simpa [applyClose, closeBegun] using p)) (idle rfl)
  | @lapse _ k notHeld pending opened =>
    have due : (lapsedState k (noticeTaken k s)).copyEndDue = s.copyEndDue := by
      unfold lapsedState; split_ifs <;> simp [noticeTaken]
    have held : heldClose (lapsedState k (noticeTaken k s)) = none := by
      refine effect_notHeld ?_ notHeld
      unfold lapsedState; split_ifs <;> simp [noticeTaken]
    refine ready.of_le snap due (fun p => .inl fun empty => p ?_) (idle held)
    unfold lapsedState; split_ifs <;> simp [noticeTaken, empty]
  | ignore notOpen => exact leases (noticeTaken_frame _ s) ready

/-! ### Owned counts and creation orders -/

theorem filter_all {α : Type} (o : Option α) : (o.filter fun _ => true) = o := by
  cases o <;> rfl

theorem RegionsAgree.congr {s t : State} (agree : RegionsAgree s) (regions : t.regions = s.regions)
    (clients : t.clients = s.clients) : RegionsAgree t := by
  have region := region_congr regions
  have client := client_congr clients
  refine agree.of_shape (fun _ => true) (fun i => by rw [region]) (fun i => by rw [region, filter_all])
    (fun k => by rw [client]) (fun i k h => by rw [client]; exact agree.closedOwnsNone i k h) fun i k h => ?_
  rw [region] at h
  rw [client]
  obtain h | h := h
  · exact agree.reservedOpen i k h
  · exact agree.stagedOpen i k h

/-- A client whose record changes stays open, or owns nothing RESERVED or staged and does not become CLOSED. -/
theorem RegionsAgree.updClient {s : State} (agree : RegionsAgree s) (k : ClientId) (f : Client → Client)
    (owned : (f (s.client k)).owned = (s.client k).owned)
    (state : isOpen (f (s.client k)) ∨ ((∀ i, isReservedOf k (s.region i) = false) ∧ (∀ i, isStagedOf k (s.region i) = false)
      ∧ (f (s.client k)).state ≠ .closed)) : RegionsAgree (s.updClient k f) := by
  refine agree.of_shape (fun _ => true) (fun i => by simp) (fun i => by simp [filter_all]) (fun j => ?_) (fun i j h => ?_)
    fun i j h => ?_
  · rw [client_updClient]; split_ifs with e
    · rw [e, owned]
    · rfl
  · rw [client_updClient]; split_ifs with e
    · subst e
      obtain (st | st) | ⟨-, -, st⟩ := state
      · simp [st]
      · simp [st]
      · exact st
    · exact agree.closedOwnsNone i j h
  · rw [client_updClient]
    simp only [region_updClient] at h
    split_ifs with e
    · subst e
      obtain opened | ⟨noReserved, noStaged, -⟩ := state
      · exact opened
      · simp [noReserved i, noStaged i] at h
    · obtain h | h := h
      · exact agree.reservedOpen i j h
      · exact agree.stagedOpen i j h

/-- A staged part made or changed for an open owner. -/
theorem RegionsAgree.setRegion {s : State} (agree : RegionsAgree s) (i : RegionId) (r : Region)
    (owner : regionOwner r = regionOwner (s.region i)) (slot : reservedSlot r = reservedSlot (s.region i))
    (opened : ∀ k, regionOwner (s.region i) = some k → isOpen (s.client k)) : RegionsAgree (s.setRegion i r) := by
  refine agree.of_shape (fun _ => true) (fun j => ?_) (fun j => ?_) (fun j => by simp)
    (fun j k h => by rw [client_setRegion]; exact agree.closedOwnsNone j k h) fun j k h => ?_
  · rw [region_setRegion]; split_ifs with e
    · rw [e, owner]
    · rfl
  · rw [region_setRegion]; split_ifs with e
    · rw [e, slot, filter_all]
    · rw [filter_all]
  · rw [region_setRegion] at h
    rw [client_setRegion]
    split_ifs at h with e
    · refine opened k ?_
      rw [← owner]
      cases r <;> simp_all
    · obtain h | h := h
      · exact agree.reservedOpen j k h
      · exact agree.stagedOpen j k h

/-- A FREE record becomes RESERVED for an open client, last in its creation order (R7, R8, R24). -/
theorem RegionsAgree.reserveRecord {s : State} (agree : RegionsAgree s) {i : RegionId} {k : ClientId} (p : Part)
    (free : s.region i = .free) (opened : isOpen (s.client k)) : RegionsAgree (reserveRecord i k p s) := by
  have region (j : RegionId) : (Machine.reserveRecord i k p s).region j = if j = i then
      .reserved { owner := k, band := clientClass s k, staged := p, order := reservedCount s k + 1 } else s.region j := by
    simp [Machine.reserveRecord, region_setRegion]
  have client (j : ClientId) : (Machine.reserveRecord i k p s).client j =
      if j = k then { s.client j with owned := (s.client j).owned + 1 } else s.client j := by
    simp [Machine.reserveRecord, client_updClient]
  have state (j : ClientId) : ((Machine.reserveRecord i k p s).client j).state = (s.client j).state := by
    rw [client]; split_ifs <;> rfl
  have count : reservedCount s k = (reservedIds k s).card := length_reserved k s
  have fresh (j : ClientId) : i ∉ reservedIds j s := fun h => by
    obtain ⟨q, hq, -⟩ := mem_reservedIds.mp h
    rw [free] at hq; cases hq
  have ids (j : ClientId) : reservedIds j (Machine.reserveRecord i k p s) =
      if j = k then insert i (reservedIds j s) else reservedIds j s := by
    ext m
    by_cases e : m = i
    · subst e
      by_cases own : j = k
      · simp [mem_reservedIds, region, own]
      · simp [mem_reservedIds, region, own, Ne.symm own, free]
    · by_cases own : j = k <;> simp [mem_reservedIds, region, own, e]
  refine ⟨fun j => ?_, fun j m h => ?_, fun j m h => ?_, fun j m h => ?_, fun j r h => ?_, fun j m r q hr hq o n => ?_⟩
  · have owners : (Finset.univ.filter fun m => regionOwner ((Machine.reserveRecord i k p s).region m) = some j) =
        if j = k then insert i (Finset.univ.filter fun m => regionOwner (s.region m) = some j)
        else Finset.univ.filter fun m => regionOwner (s.region m) = some j := by
      ext m
      by_cases e : m = i
      · subst e
        by_cases own : j = k
        · simp [region, own]
        · simp [region, own, Ne.symm own, free]
      · by_cases own : j = k <;> simp [region, own, e]
    have before := agree.counts j
    rw [ownedRecords_eq] at before
    rw [client, ownedRecords_eq, owners]
    split_ifs with own
    · rw [Finset.card_insert_of_notMem (by simp [free]), ← before]
    · exact before
  · rw [state]
    rw [region] at h
    split_ifs at h
    · cases h
      obtain st | st := opened <;> simp [st]
    · exact agree.closedOwnsNone j m h
  · rw [state]
    rw [region] at h
    split_ifs at h
    · obtain rfl : k = m := by simpa using h
      exact opened
    · exact agree.reservedOpen j m h
  · rw [state]
    rw [region] at h
    split_ifs at h
    · simp at h
    · exact agree.stagedOpen j m h
  · rw [length_reserved, ids]
    rw [region] at h
    split_ifs at h with e
    · cases h
      simp only [if_true]
      rw [Finset.card_insert_of_notMem (fresh k), count]
      omega
    · have bounds := agree.orders j r h
      rw [length_reserved] at bounds
      split_ifs with own
      · rw [Finset.card_insert_of_notMem (fresh _)]
        omega
      · exact bounds
  · have low {a : RegionId} {x : ReservedRegion} (hx : s.region a = .reserved x) (own : x.owner = k) :
        x.order ≤ reservedCount s k := by
      have bounds := agree.orders a x hx
      rw [length_reserved, own] at bounds
      omega
    rw [region] at hr hq
    split_ifs at hr hq with ej em em
    · rw [ej, em]
    · cases hr
      have := low hq o.symm
      simp only at n
      omega
    · cases hq
      have := low hr o
      simp only at n
      omega
    · exact agree.distinct j m r q hr hq o n

theorem reservedSlot_dropStaged (k : ClientId) (r : Region) : reservedSlot (dropStaged k r) = reservedSlot r := by
  cases r with
  | live q => simp only [dropStaged]; split_ifs <;> rfl
  | _ => rfl

theorem isStagedOf_of_dropStaged {k j : ClientId} {r : Region} (h : isStagedOf j (dropStaged k r) = true) :
    isStagedOf j r = true := by
  cases r with
  | live q => simp only [dropStaged] at h; split_ifs at h <;> simp_all
  | _ => exact h

/-- Discarding a client's staging (R60). -/
theorem RegionsAgree.discardStaging {s : State} (agree : RegionsAgree s) (k : ClientId) :
    RegionsAgree (discardStaging k s) := by
  have freed := agree.freeRecords (nodup_idsWhere (isReservedOf k) s)
  have client (j : ClientId) := client_discardStaging k j s
  have region (i : RegionId) : (Machine.discardStaging k s).region i =
      dropStaged k ((Machine.freeRecords (s.idsWhere (isReservedOf k)) s).region i) := by
    simp [Machine.discardStaging]
  have state (j : ClientId) : ((Machine.discardStaging k s).client j).state =
      ((Machine.freeRecords (s.idsWhere (isReservedOf k)) s).client j).state := by
    rw [client]; split_ifs <;> rfl
  refine freed.of_shape (fun _ => true) (fun i => by simp [region])
    (fun i => by rw [region, reservedSlot_dropStaged, filter_all]) (fun j => by rw [client]; split_ifs <;> rfl)
    (fun i j h => by rw [state]; exact freed.closedOwnsNone i j h) fun i j h => ?_
  rw [region] at h
  rw [isOpen, state]
  obtain h | h := h
  · exact freed.reservedOpen i j (by simpa using h)
  · exact freed.stagedOpen i j (isStagedOf_of_dropStaged h)

/-! ### Committed changes -/

theorem regionOwner_publishedRecord (k : ClientId) (eff : Frame) (moved : Bool) (r : Region) :
    regionOwner (publishedRecord k eff moved r) = if isRetiringOf k r then none else regionOwner r := by
  cases r with
  | free => simp [publishedRecord, isRetiringOf]
  | reserved q => by_cases own : q.owner = k <;> simp [publishedRecord, isRetiringOf, own]
  | live q =>
    by_cases own : q.owner = k
    · cases st : q.staged with
      | none => simp [publishedRecord, isRetiringOf, own, st]
      | some e => by_cases retire : e.retire = true <;> simp [publishedRecord, isRetiringOf, own, st, retire]
    · simp [publishedRecord, isRetiringOf, own]

theorem reservedSlot_publishedRecord (k : ClientId) (eff : Frame) (moved : Bool) (r : Region) :
    reservedSlot (publishedRecord k eff moved r) = (reservedSlot r).filter fun p => decide (p.1 ≠ k) := by
  cases r with
  | free => simp [publishedRecord, reservedSlot]
  | reserved q => by_cases own : q.owner = k <;> simp [publishedRecord, reservedSlot, own, Option.filter]
  | live q =>
    by_cases own : q.owner = k
    · cases st : q.staged with
      | none => simp [publishedRecord, reservedSlot, own, st]
      | some e => by_cases retire : e.retire = true <;> simp [publishedRecord, reservedSlot, own, st, retire]
    · simp [publishedRecord, reservedSlot, own]

/-- A publish leaves its client nothing staged, and nobody else more than there was. -/
theorem isStagedOf_publishedRecord {k j : ClientId} {eff : Frame} {moved : Bool} {r : Region}
    (h : isStagedOf j (publishedRecord k eff moved r) = true) : j ≠ k ∧ isStagedOf j r = true := by
  obtain e | ⟨e, notLive⟩ | ⟨q, -, -, e⟩ | ⟨q, st, -, -, -, -, e⟩ | ⟨q, f, rfl, none, e⟩ :=
    publishedRecord_cases k eff moved r <;> rw [e] at h
  · simp at h
  · cases r with
    | live q => exact absurd rfl (notLive q)
    | free => simp at h
    | reserved q => simp at h
  · simp at h
  · simp at h
  · simp only [isStagedOf_live, Bool.and_eq_true, decide_eq_true_eq] at h
    refine ⟨fun own => ?_, by simpa using h⟩
    rw [none (h.1.trans own)] at h
    simp at h

/-- A publish that goes through (R67 to R71). -/
theorem RegionsAgree.publishSteps {s : State} (agree : RegionsAgree s) (k : ClientId) : RegionsAgree (publishSteps k s).1 := by
  have retired := agree.freeRecords (nodup_idsWhere (isRetiringOf k) s)
  have before (i : RegionId) : (Machine.freeRecords (s.idsWhere (isRetiringOf k)) s).region i =
      if isRetiringOf k (s.region i) then .free else s.region i := region_retireStep k s i
  have client (j : ClientId) := client_publishSteps k j s
  refine retired.of_shape (fun j => decide (j ≠ k)) (fun i => ?_) (fun i => ?_) (fun j => ?_) (fun i j h => ?_) fun i j h => ?_
  · rw [region_publishSteps, regionOwner_publishedRecord, before]
    split_ifs <;> rfl
  · rw [region_publishSteps, reservedSlot_publishedRecord, before]
    split_ifs with retiring
    · obtain ⟨g, st, e, -⟩ := isRetiringOf_iff.mp retiring
      rw [e]; rfl
    · rfl
  · rw [client]; split_ifs <;> rfl
  · rw [client]; split_ifs with own
    · simp
    · exact retired.closedOwnsNone i j h
  · rw [isOpen, client]
    rw [region_publishSteps] at h
    split_ifs with own
    · exact .inl rfl
    · obtain h | h := h
      · refine retired.reservedOpen i j ?_
        rw [isReservedOf_eq_isSome, reservedSlot_publishedRecord] at h
        rw [before]
        split_ifs with retiring
        · obtain ⟨g, st, e, -⟩ := isRetiringOf_iff.mp retiring
          rw [e] at h; cases h
        · rw [isReservedOf_eq_isSome]
          cases e : reservedSlot (s.region i) with
          | none => rw [e] at h; cases h
          | some p => by_cases keep : p.1 = k <;> simp_all
      · refine retired.stagedOpen i j ?_
        obtain ⟨-, staged⟩ := isStagedOf_publishedRecord h
        rw [before]
        split_ifs with retiring
        · obtain ⟨g, st, e, o, -⟩ := isRetiringOf_iff.mp retiring
          rw [e, isStagedOf_live] at staged
          simp only [Bool.and_eq_true, decide_eq_true_eq] at staged
          exact absurd (staged.1.symm.trans o) own
        · exact staged

theorem RegionsAgree.applyPublish {s : State} (agree : RegionsAgree s) (k : ClientId) : RegionsAgree (applyPublish k s).1 := by
  have refused : RegionsAgree (leavePublishing k s) := agree.updClient k _ rfl (.inl (.inl rfl))
  unfold Machine.applyPublish
  split
  · exact refused
  · exact agree.publishSteps k

/-- A close of a client with nothing RESERVED (R33). -/
theorem RegionsAgree.applyClose {s : State} (agree : RegionsAgree s) (k : ClientId)
    (noReserved : ∀ i, isReservedOf k (s.region i) = false) : RegionsAgree (applyClose k s) := by
  have freed := agree.freeRecords (nodup_idsWhere (isLiveOf k) s)
  have region (i : RegionId) : (Machine.applyClose k s).region i =
      (Machine.freeRecords (s.idsWhere (isLiveOf k)) s).region i := region_updClient k _ _ i
  have none (i : RegionId) : regionOwner ((Machine.applyClose k s).region i) ≠ some k := by
    rw [region_applyClose]
    cases e : s.region i with
    | free => simp
    | reserved q => simpa [e] using noReserved i
    | live q => by_cases own : q.owner = k <;> simp [own]
  refine freed.of_shape (fun _ => true) (fun i => by rw [region]) (fun i => by rw [region, filter_all]) (fun j => ?_) (fun i j h => ?_)
    fun i j h => ?_
  · rw [client_applyClose]
    split_ifs with own
    · rw [freed.counts, ownedRecords_eq, own]
      simp only [← region, none]
      simp [closedClient]
    · rfl
  · rw [client_applyClose]
    split_ifs with own
    · rw [← region, own] at h
      exact absurd h (none i)
    · exact freed.closedOwnsNone i j h
  · rw [isOpen, client_applyClose]
    have owner : regionOwner ((Machine.applyClose k s).region i) = some j := by
      cases e : (Machine.applyClose k s).region i <;> simp_all
    split_ifs with own
    · rw [own] at owner
      exact absurd owner (none i)
    · rw [region] at h
      obtain h | h := h
      · exact freed.reservedOpen i j h
      · exact freed.stagedOpen i j h

/-- With every record FREE the table agrees with clients that own nothing. -/
theorem RegionsAgree.of_free {s : State} (free : ∀ i, s.region i = .free) (owned : ∀ k, (s.client k).owned = 0) :
    RegionsAgree s := by
  refine ⟨fun k => ?_, ?_, ?_, ?_, ?_, ?_⟩
  · rw [owned, ownedRecords_eq]; simp only [free, regionOwner_free, reduceCtorEq, Finset.filter_false, Finset.card_empty]
  all_goals simp [free]

end Sys2Proof.Machine
end

section
/-! PROOF. Every operation of the engine keeps the agreement of the client records and the Parked List, so that every step keeps
`RecordsHold` (R2, R8, R21, R24, R31, R35, R85). -/

namespace Sys2Proof.Machine

/-! ### Putting the agreement together -/

theorem RecordsHold.of_notHeld {t : State} (notHeld : heldClose t = none) (regions : RegionsAgree t)
    (list : ListAgrees t.parked) (parties : ∀ k, PartyAgrees t k) : RecordsHold t :=
  (recordsHold_iff t).mpr ⟨regions, list, parties, fun k h => absurd h (not_closeHeld notHeld k)⟩

theorem PartyAgrees.congr {s t : State} {k : ClientId} (agree : PartyAgrees s k) (parked : t.parked = s.parked)
    (held : heldClose t = heldClose s) (state : (t.client k).state = (s.client k).state)
    (terms : (t.client k).terms = (s.client k).terms) (flag : (t.client k).parkedEntry = (s.client k).parkedEntry)
    (moves : (s.client k).moves = [] → (t.client k).moves = []) : PartyAgrees t k :=
  ClientAgrees.congr agree (by rw [parked]) (by rw [parked]) (closeHeld_congr held k) state terms flag moves

theorem RecordsHold.of_tables {s t : State} (hold : RecordsHold s) (regions : t.regions = s.regions)
    (clients : t.clients = s.clients) (parked : t.parked = s.parked) (held : heldClose t = heldClose s) : RecordsHold t := by
  obtain ⟨agree, list, parties, done⟩ := (recordsHold_iff s).mp hold
  have client := client_congr clients
  refine (recordsHold_iff t).mpr ⟨agree.congr regions clients, by rwa [parked], fun k => ?_, fun k h => ?_⟩
  · exact (parties k).congr parked held (by rw [client]) (by rw [client]) (by rw [client]) (by rw [client]; exact id)
  · rw [parked]
    simp only [region_congr regions]
    exact done k ((closeHeld_congr held k).mp h)

theorem RecordsHold.of_leaseFrame {s t : State} (hold : RecordsHold s) (frame : leaseFrame s t) : RecordsHold t :=
  hold.of_tables (by rw [frame]) (by rw [frame]) (by rw [frame]) (heldClose_congr (by rw [frame]))

/-- Changes of the tables by a request in hand: the parties are those of before, client by client. -/
theorem RecordsHold.staged {s t : State} (hold : RecordsHold s) (notHeld : heldClose s = none) (frame : tableFrame s t)
    (regions : RegionsAgree s → RegionsAgree t) (parties : ∀ k, PartyAgrees s k → PartyAgrees t k) : RecordsHold t := by
  obtain ⟨agree, list, clients, -⟩ := (recordsHold_iff s).mp hold
  exact .of_notHeld ((tableFrame_heldClose frame).trans notHeld) (regions agree) (by rwa [tableFrame_parked frame])
    fun k => parties k (clients k)

/-- A change of the tables that gives a client other moves only when it is open, and the same state, terms and flag. -/
theorem PartyAgrees.of_tables {s t : State} {k : ClientId} (agree : PartyAgrees s k) (frame : tableFrame s t)
    (state : (t.client k).state = (s.client k).state) (terms : (t.client k).terms = (s.client k).terms)
    (flag : (t.client k).parkedEntry = (s.client k).parkedEntry)
    (moves : (s.client k).moves = [] → (t.client k).moves = []) : PartyAgrees t k :=
  agree.congr (tableFrame_parked frame) (tableFrame_heldClose frame) state terms flag moves

theorem PartyAgrees.of_freed {s : State} {k : ClientId} (agree : PartyAgrees s k) (ids : List RegionId) :
    PartyAgrees (freeRecords ids s) k :=
  agree.of_tables (freeRecords_tables ids s) (by rw [client_freeRecords]) (by rw [client_freeRecords])
    (by rw [client_freeRecords]) fun e => by rw [client_freeRecords]; simp [e]

theorem PartyAgrees.discardStaging {s : State} {k : ClientId} (agree : PartyAgrees s k) (j : ClientId) :
    PartyAgrees (discardStaging j s) k := by
  have freed := agree.of_freed (s.idsWhere (isReservedOf j))
  refine ClientAgrees.congr freed ?_ ?_ (closeHeld_congr ?_ k) ?_ ?_ ?_ fun e => ?_
  · simp
  · simp
  · exact (tableFrame_heldClose (discardStaging_tables j s)).trans (tableFrame_heldClose (freeRecords_tables _ s)).symm
  · rw [client_discardStaging]; split_ifs <;> rfl
  · rw [client_discardStaging]; split_ifs <;> rfl
  · rw [client_discardStaging]; split_ifs <;> rfl
  · rw [client_discardStaging]; split_ifs
    · rfl
    · exact e

/-! ### The operations -/

/-- The close of a client that may go on finds nothing of it staged or parked, and no CLEAR_ALL parked (R31, R32). -/
theorem CloseMay.facts {k : ClientId} {parks : Bool} {s : State} (may : CloseMay k parks s) (hold : RecordsHold s) :
    (∀ i, isReservedOf k (s.region i) = false) ∧ (∀ i, isStagedOf k (s.region i) = false) ∧ (s.client k).moves = []
      ∧ ¬ publishParked k s.parked ∧ ¬ closeParked k s.parked ∧ ¬ clearAmong s.parked ∧ (s.client k).state ≠ .closed
      ∧ ∀ j, j ≠ k → ¬ closeHeld j s := by
  obtain ⟨-, -, parties, done⟩ := (recordsHold_iff s).mp hold
  obtain held | ⟨closing, -, notPublish⟩ := may
  · obtain ⟨noReserved, noStaged, noClear⟩ := done k ⟨parks, held⟩
    obtain ⟨noPublish, moves⟩ := (parties k).held ⟨parks, held⟩
    have publishing := (parties k).publishing.mpr (.inr ⟨parks, held⟩)
    refine ⟨noReserved, noStaged, moves, noPublish, (parties k).not_close_of_publishing publishing, noClear,
      by simp [publishing], fun j ne h => ?_⟩
    obtain ⟨p, h⟩ := h
    rw [held] at h
    cases h
    exact ne rfl
  · have notHeld : heldClose s = none := by simp [heldClose, closing.engine]
    refine ⟨closing.noReserved, closing.noStaged, closing.noMoves, fun ⟨tag, h⟩ => notPublish tag h, fun c => ?_, fun c => ?_,
      closing.isOpen.1, fun j _ => not_closeHeld notHeld j⟩
    · exact closing.isOpen.2 ((parties k).closing.mpr c)
    · have := (clearParked_iff s).mpr c
      rw [closing.noClear] at this
      cases this

theorem client_closeBegun (k j : ClientId) (s : State) :
    (closeBegun k s).client j = if j = k then { s.client j with state := .closing } else s.client j := by
  simp [closeBegun, client_updClient]

theorem regionsAgree_closeBegun {k : ClientId} {s : State} (agree : RegionsAgree s)
    (noReserved : ∀ i, isReservedOf k (s.region i) = false) (noStaged : ∀ i, isStagedOf k (s.region i) = false) :
    RegionsAgree (closeBegun k s) := by
  have asked : RegionsAgree (askLease [.stop k] s) := agree.congr (by simp) (by simp)
  exact asked.updClient k _ rfl (.inr ⟨by simpa using noReserved, by simpa using noStaged, nofun⟩)

/-- An applied publish of a client with nothing more parked leaves every record as it must be (R66, R71). -/
theorem partyAgrees_applyPublish {k : ClientId} {s : State} (notHeld : heldClose s = none)
    (nothing : ¬ publishParked k s.parked ∧ ¬ closeParked k s.parked) (terms : (s.client k).terms ≠ none)
    (others : ∀ j, j ≠ k → PartyAgrees s j) (j : ClientId) : PartyAgrees (applyPublish k s).1 j := by
  have frame := applyPublish_tables k s
  have parked := tableFrame_parked frame
  have held := (tableFrame_heldClose frame).trans notHeld
  have same : (∀ i, i ≠ k → ((applyPublish k s).1.client i).state = (s.client i).state
      ∧ ((applyPublish k s).1.client i).terms = (s.client i).terms
      ∧ ((applyPublish k s).1.client i).parkedEntry = (s.client i).parkedEntry
      ∧ ((s.client i).moves = [] → ((applyPublish k s).1.client i).moves = []))
      ∧ ((applyPublish k s).1.client k).state = .active ∧ ((applyPublish k s).1.client k).terms = (s.client k).terms
      ∧ ((applyPublish k s).1.client k).parkedEntry = false := by
    have retired (i : ClientId) : (retireStep k s).client i = _ := client_freeRecords (s.idsWhere (isRetiringOf k)) s i
    unfold applyPublish
    split
    · simp only [leavePublishing, client_updClient]
      exact ⟨fun i ne => by simp [ne], by simp⟩
    · simp only [client_publishSteps, retired]
      exact ⟨fun i ne => by simp +contextual [ne], by simp⟩
  obtain ⟨other, state, keptTerms, flag⟩ := same
  by_cases e : j = k
  · subst e
    refine ClientAgrees.of_nothing ⟨by rw [parked]; exact nothing.1, by rw [parked]; exact nothing.2, not_closeHeld held j⟩ flag
      (by simp [state]) (by simp [state]) ?_ (by simp [state])
    rw [state, keptTerms]
    simp [terms]
  · obtain ⟨st, tm, fl, mv⟩ := other j e
    exact (others j e).of_tables frame st tm fl mv

/-- An applied close of a client with nothing more parked (R33). -/
theorem partyAgrees_applyClose {k : ClientId} {s : State} (notHeld : heldClose s = none)
    (nothing : ¬ publishParked k s.parked ∧ ¬ closeParked k s.parked) (others : ∀ j, j ≠ k → PartyAgrees s j) (j : ClientId) :
    PartyAgrees (applyClose k s) j := by
  have frame := applyClose_tables k s
  have parked := tableFrame_parked frame
  have held := (tableFrame_heldClose frame).trans notHeld
  by_cases e : j = k
  · subst e
    unfold PartyAgrees
    rw [client_applyClose, if_pos rfl, parked]
    exact .of_closed ⟨nothing.1, nothing.2, not_closeHeld held j⟩
  · have freed := (others j e).of_freed (s.idsWhere (isLiveOf k))
    exact ClientAgrees.congr freed (by simp) (by simp) (closeHeld_congr (held.trans
      ((tableFrame_heldClose (freeRecords_tables _ s)).trans notHeld).symm) j) (by rw [client_applyClose, if_neg e])
      (by rw [client_applyClose, if_neg e]) (by rw [client_applyClose, if_neg e])
      (by rw [client_applyClose, if_neg e]; exact id)

/-- An applied clear with nothing more parked (R37, R90). -/
theorem recordsHold_applyClear {s : State} (notHeld : heldClose s = none) (parked : s.parked = [])
    (supervisor : ClientAgrees False False False (s.client 0)) : RecordsHold (applyClear s) := by
  have none : s.parked = [] → (applyClear s).parked = [] := fun e => by simpa using e
  have held : heldClose (applyClear s) = .none := (heldClose_congr (by simp)).trans notHeld
  refine .of_notHeld held (.of_free (by simp) fun k => ?_) (by rw [none parked]; exact .nil) fun k => ?_
  · rw [client_applyClear, clearedClient]; split_ifs <;> rfl
  · unfold PartyAgrees
    rw [client_applyClear, clearedClient, none parked]
    split_ifs with e
    · subst e
      exact supervisor.congr (by simp) (by simp) (by simp [closeHeld, held]) rfl rfl rfl fun _ => rfl
    · exact .of_closed ⟨by simp, by simp, not_closeHeld held k⟩

/-- A parked entry is taken and applied (R87). -/
theorem recordsHold_pop {s : State} {e : ParkedEntry} {rest : List ParkedEntry} (hold : RecordsHold s)
    (notHeld : heldClose s = none) (parked : s.parked = e :: rest) :
    RecordsHold (applyEntry e { s with parked := rest }).1 := by
  obtain ⟨agree, list, parties, -⟩ := (recordsHold_iff s).mp hold
  rw [parked] at list
  obtain ⟨listRest, once, clearLast⟩ := list.of_cons
  have popped : RegionsAgree { s with parked := rest } := agree.congr rfl rfl
  have others (j : ClientId) (ne : parkedOwner e ≠ some j) : PartyAgrees { s with parked := rest } j := by
    refine ClientAgrees.congr (parties j) ?_ ?_ Iff.rfl rfl rfl rfl id <;> rw [parked] <;>
      cases e <;> simp_all [parkedOwner]
  have listed : ListAgrees (applyEntry e { s with parked := rest }).1.parked := by
    rw [(applyEntry_quiets e { s with parked := rest }).2.2]; exact listRest
  have held : heldClose (applyEntry e { s with parked := rest }).1 = none :=
    effect_notHeld (applyEntry_engine e _) notHeld
  cases e with
  | publish k tag =>
    have publishing := (parties k).publishing.mpr (.inl (by rw [parked]; simp))
    refine .of_notHeld held (popped.applyPublish k) listed (partyAgrees_applyPublish notHeld (once k rfl) ?_ fun j ne =>
      others j (by simpa [parkedOwner] using ne.symm))
    intro none
    have closed := (parties k).terms.mp none
    rw [publishing] at closed
    cases closed
  | close k tag =>
    have closing := (parties k).closing.mpr (by rw [parked]; simp)
    refine .of_notHeld held (popped.applyClose k fun i => ?_) listed (partyAgrees_applyClose notHeld (once k rfl) fun j ne =>
      others j (by simpa [parkedOwner] using ne.symm))
    show isReservedOf k (s.region i) = false
    by_contra reserved
    have opened := agree.reservedOpen i k (by simpa using reserved)
    simp [closing] at opened
  | clearAll tag =>
    obtain rfl := clearLast tag rfl
    refine recordsHold_applyClear notHeld rfl ?_
    exact ClientAgrees.congr (others 0 nofun) (by simp) (by simp) 
      ⟨False.elim, fun h => absurd h (not_closeHeld (s := { s with parked := [] }) notHeld 0)⟩ rfl rfl rfl id

/-- The publish of client `k` leaves the Parked List of a lapsing or closing client (R32, R88, R98). -/
theorem partyAgrees_removePublish_other {k j : ClientId} {s : State} (agree : PartyAgrees s j) (ne : j ≠ k) :
    PartyAgrees (removePublish k s) j := by
  have client : (removePublish k s).client j = s.client j := by rw [client_removePublish, if_neg ne]
  refine ClientAgrees.congr agree ?_ ?_ (closeHeld_congr (heldClose_congr (by simp)) j) (by rw [client]) (by rw [client])
    (by rw [client]) (by rw [client]; exact id)
  · rw [removePublish_parked, publishParked_filter]; simp [ne]
  · rw [removePublish_parked, closeParked_filter]

/-- The parked publish of a closing client is cancelled, and its close waits (R32). -/
theorem recordsHold_cancel {s : State} {k : ClientId} {ptag : Tag} (tag : Tag) (hold : RecordsHold s) (closing : Closing k s)
    (parked : ParkedEntry.publish k ptag ∈ s.parked) (parks : Bool) :
    RecordsHold { removePublish k s with engine := .working (.closeTail k tag parks) } := by
  obtain ⟨agree, list, parties, -⟩ := (recordsHold_iff s).mp hold
  have notHeld : heldClose s = none := by simp [heldClose, closing.engine]
  have publishing := (parties k).publishing.mpr (.inl ⟨ptag, parked⟩)
  have region (i : RegionId) : ({ removePublish k s with engine := .working (.closeTail k tag parks) } : State).region i =
      s.region i := region_congr (by simp) i
  have held (j : ClientId) : closeHeld j { removePublish k s with engine := .working (.closeTail k tag parks) } ↔ j = k := by
    simp [closeHeld, heldClose, eq_comm]
  refine (recordsHold_iff _).mpr ⟨?_, ?_, fun j => ?_, fun j waits => ?_⟩
  · have removed : RegionsAgree (removePublish k s) :=
      (agree.congr (t := { s with parked := s.parked.filter fun e => !isPublishOf k e }) rfl rfl).updClient k _ rfl
        (.inl (.inr publishing))
    exact removed.congr rfl rfl
  · show ListAgrees (removePublish k s).parked
    rw [removePublish_parked]
    exact list.filter _
  · by_cases e : j = k
    · subst e
      have client : ({ removePublish j s with engine := .working (.closeTail j tag parks) } : State).client j =
          { s.client j with parkedEntry := false } := by
        refine (client_congr (s := removePublish j s) rfl j).trans ?_
        rw [client_removePublish, if_pos rfl]
      have gone : ¬ publishParked j (removePublish j s).parked := by
        rw [removePublish_parked, publishParked_filter]; simp
      have noClose := (parties j).not_close_of_publishing publishing
      unfold PartyAgrees
      rw [client]
      refine ⟨(parties j).terms, (parties j).moves, ?_, ?_, fun p => absurd p gone, nofun, fun _ => ⟨gone, closing.noMoves⟩⟩
      · exact ⟨fun _ => .inr ((held j).mpr rfl), fun _ => publishing⟩
      · refine ⟨fun st => ?_, fun q => ?_⟩
        · exact absurd ((parties j).closing.mp st) noClose
        · exact absurd ((closeParked_filter j j s.parked).mp (by simpa using q)) noClose
    · refine ClientAgrees.congr (partyAgrees_removePublish_other (k := k) (parties j) e) Iff.rfl Iff.rfl ?_ rfl rfl rfl id
      rw [held]
      simp [e, closeHeld_congr (s := s) (t := removePublish k s) (heldClose_congr (by simp)), not_closeHeld notHeld]
  · obtain rfl := (held j).mp waits
    simp only [region]
    refine ⟨closing.noReserved, closing.noStaged, fun ⟨t, c⟩ => ?_⟩
    have kept : ParkedEntry.clearAll t ∈ (removePublish j s).parked := c
    rw [removePublish_parked] at kept
    have clear := (clearParked_iff s).mpr ⟨t, List.mem_of_mem_filter kept⟩
    rw [closing.noClear] at clear
    cases clear

/-- A close parks (R31 step 5). -/
theorem recordsHold_closePark {s : State} {k : ClientId} (tag : Tag) (hold : RecordsHold s) (may : CloseMay k true s) :
    RecordsHold (closeTail k tag true s) := by
  obtain ⟨noReserved, noStaged, moves, noPublish, noClose, noClear, notClosed, others⟩ := may.facts hold
  obtain ⟨agree, list, parties, -⟩ := (recordsHold_iff s).mp hold
  rw [closeTail_parks]
  have begun := regionsAgree_closeBegun agree noReserved noStaged
  have flagged : RegionsAgree ((closeBegun k s).updClient k fun c => { c with parkedEntry := true }) := by
    refine begun.updClient k _ rfl (.inr ⟨by simpa [closeBegun] using noReserved, by simpa [closeBegun] using noStaged, ?_⟩)
    rw [client_closeBegun, if_pos rfl]
    nofun
  have client (j : ClientId) : ({ (closeBegun k s).updClient k fun c => { c with parkedEntry := true } with
      parked := s.parked ++ [.close k tag], engine := .free } : State).client j =
      if j = k then { s.client j with state := .closing, parkedEntry := true } else s.client j := by
    refine (client_congr (s := (closeBegun k s).updClient k fun c => { c with parkedEntry := true }) rfl j).trans ?_
    rw [client_updClient, client_closeBegun]
    split_ifs <;> rfl
  refine .of_notHeld rfl (flagged.congr rfl rfl) (list.append noClear fun j own => ?_) fun j => ?_
  · cases own
    exact ⟨noPublish, noClose⟩
  · unfold PartyAgrees
    rw [client]
    split_ifs with e
    · subst e
      refine ⟨⟨fun none => absurd ((parties j).terms.mp none) notClosed, nofun⟩, fun _ => moves, ⟨nofun, ?_⟩, ?_, fun _ => rfl,
        fun _ => .inr (by simp), fun h => absurd h (not_closeHeld rfl j)⟩
      · rintro (p | h)
        · exact absurd (by simpa using p) noPublish
        · exact absurd h (not_closeHeld rfl j)
      · exact ⟨fun _ => by simp, fun _ => rfl⟩
    · refine ClientAgrees.congr (parties j) (by simp) (by simp [Ne.symm e]) ?_ rfl rfl rfl id
      exact ⟨fun h => absurd h (not_closeHeld rfl j), fun h => absurd h (others j e)⟩

theorem applyClose_idle (k : ClientId) (s : State) :
    { applyClose k s with committedWork := false, engine := .free } =
      applyClose k { s with committedWork := false, engine := .free } := by
  cases s; rfl

/-- A close is applied at once (R33). -/
theorem recordsHold_closeNow {s : State} {k : ClientId} (hold : RecordsHold s) (may : CloseMay k false s) :
    RecordsHold { applyClose k (closeBegun k s) with committedWork := false, engine := .free } := by
  obtain ⟨noReserved, noStaged, moves, noPublish, noClose, -, notClosed, others⟩ := may.facts hold
  obtain ⟨agree, list, parties, -⟩ := (recordsHold_iff s).mp hold
  have begun : RegionsAgree { closeBegun k s with committedWork := false, engine := .free } :=
    (regionsAgree_closeBegun agree noReserved noStaged).congr rfl rfl
  have parked : ({ closeBegun k s with committedWork := false, engine := .free } : State).parked = s.parked := by simp [closeBegun]
  have frame := applyClose_tables k { closeBegun k s with committedWork := false, engine := .free }
  rw [applyClose_idle]
  refine .of_notHeld (tableFrame_heldClose frame) (begun.applyClose k ?_) ?_ (partyAgrees_applyClose rfl ?_ fun j ne => ?_)
  · intro i
    rw [region_congr (s := s) (by simp [closeBegun]) i]
    exact noReserved i
  · rw [tableFrame_parked frame, parked]; exact list
  · rw [parked]; exact ⟨noPublish, noClose⟩
  · have client : ({ closeBegun k s with committedWork := false, engine := .free } : State).client j = s.client j := by
      refine (client_congr (s := closeBegun k s) rfl j).trans ?_
      rw [client_closeBegun, if_neg ne]
    refine ClientAgrees.congr (parties j) (by rw [parked]) (by rw [parked]) ?_ (by rw [client]) (by rw [client])
      (by rw [client]) (by rw [client]; exact id)
    exact ⟨fun h => absurd h (not_closeHeld rfl j), fun h => absurd h (others j ne)⟩

/-- A client's notice is taken: its staging is gone, it is LAPSED, and its parked publish is removed (R98). -/
theorem recordsHold_lapse {s : State} {k : ClientId} (hold : RecordsHold s) (notHeld : heldClose s = none)
    (opened : isOpen (s.client k)) : RecordsHold (lapsedState k s) := by
  obtain ⟨agree, list, parties, -⟩ := (recordsHold_iff s).mp hold
  obtain ⟨u, eq, removed, heldU, listU, state, terms, flag, noPublish, noClose, others⟩ :
      ∃ u, (if (s.client k).parkedEntry then removePublish k s else s) = u ∧ RegionsAgree u ∧ heldClose u = none
        ∧ ListAgrees u.parked ∧ (u.client k).state = (s.client k).state ∧ (u.client k).terms = (s.client k).terms
        ∧ (u.client k).parkedEntry = false ∧ ¬ publishParked k u.parked ∧ ¬ closeParked k u.parked
        ∧ ∀ j, j ≠ k → PartyAgrees u j := by
    have noClose : ¬ closeParked k s.parked := fun c => by
      have closing := (parties k).closing.mpr c
      simp [isOpen, closing] at opened
    refine ⟨_, rfl, ?_⟩
    split_ifs with parked
    · have client : (removePublish k s).client k = { s.client k with parkedEntry := false } := by
        rw [client_removePublish, if_pos rfl]
      refine ⟨?_, (heldClose_congr (by simp)).trans notHeld, ?_, by rw [client], by rw [client], by rw [client], ?_, ?_,
        fun j ne => partyAgrees_removePublish_other (parties j) ne⟩
      · exact (agree.congr (t := { s with parked := s.parked.filter fun e => !isPublishOf k e }) rfl rfl).updClient k _ rfl
          (.inl opened)
      · rw [removePublish_parked]; exact list.filter _
      · rw [removePublish_parked, publishParked_filter]; simp
      · rw [removePublish_parked, closeParked_filter]; exact noClose
    · exact ⟨agree, notHeld, list, rfl, rfl, by simpa using parked, fun p => parked ((parties k).flagged p), noClose,
        fun j _ => parties j⟩
  have notClosed : (s.client k).terms ≠ none := fun none => by
    have closed := (parties k).terms.mp none
    simp [isOpen, closed] at opened
  unfold lapsedState
  rw [eq]
  obtain ⟨noReserved, noStaged, noMoves⟩ := discardStaging_nothing k u
  have frame := tableFrame_trans (discardStaging_tables k u)
    (updClient_tables k (fun c => { c with state := .lapsed }) _)
  have parked := tableFrame_parked frame
  have held := (tableFrame_heldClose frame).trans heldU
  refine .of_notHeld held ((removed.discardStaging k).updClient k _ rfl (.inr ⟨noReserved, noStaged, nofun⟩))
    (by rw [parked]; exact listU) fun j => ?_
  by_cases e : j = k
  · subst e
    have client : (((discardStaging j u).updClient j fun c => { c with state := .lapsed }).client j).parkedEntry = false
        ∧ (((discardStaging j u).updClient j fun c => { c with state := .lapsed }).client j).state = .lapsed
        ∧ (((discardStaging j u).updClient j fun c => { c with state := .lapsed }).client j).terms = (s.client j).terms
        ∧ (((discardStaging j u).updClient j fun c => { c with state := .lapsed }).client j).moves = [] := by
      rw [client_updClient_same]
      refine ⟨?_, rfl, ?_, noMoves⟩ <;> simp only [client_discardStaging, client_freeRecords, if_true]
      · exact flag
      · exact terms
    obtain ⟨flag', state', terms', moves'⟩ := client
    refine ClientAgrees.of_nothing ⟨by rw [parked]; exact noPublish, by rw [parked]; exact noClose, not_closeHeld held j⟩ flag'
      (by rw [state']; nofun) (by rw [state']; nofun) ?_ fun _ => moves'
    rw [terms', state']
    exact ⟨fun none => absurd none notClosed, nofun⟩
  · have client := client_updClient_other e (fun c => { c with state := .lapsed }) (discardStaging k u)
    refine ClientAgrees.congr ((others j e).discardStaging k) (by simp) (by simp)
      (closeHeld_congr (heldClose_congr (by simp)) j) ?_ ?_ ?_ ?_ <;> rw [client]
    exact id

/-! ### Staging -/

theorem terms_ne_none {s : State} (hold : RecordsHold s) {k : ClientId} (notClosed : (s.client k).state ≠ .closed) :
    (s.client k).terms ≠ none :=
  fun none => notClosed ((hold.staging.terms k).mp none)

theorem not_clearAmong {s : State} {kind : RequestKind} {h : Header} (asked : Asked s kind h) (query : queryKind kind = false) :
    ¬ clearAmong s.parked := fun c => by
  have clear := asked.passes.noClear ((clearParked_iff s).mpr c)
  rw [query] at clear
  cases clear

theorem client_reserveRecord (i : RegionId) (k j : ClientId) (p : Part) (s : State) :
    (reserveRecord i k p s).client j = if j = k then { s.client j with owned := (s.client j).owned + 1 } else s.client j := by
  simp [reserveRecord, client_updClient]

theorem recordsHold_reserve {s : State} {m : List Word} {h : Header} {i : RegionId} (hold : RecordsHold s)
    (asked : Asked s .create h) (checks : createChecks m h.client s = .ok i) :
    RecordsHold (reserveRecord i h.client (createPart m) s) := by
  obtain ⟨-, -, lowest, -⟩ := createChecks_ok checks
  have frame := reserveRecord_tables i h.client (createPart m) s
  refine hold.staged asked.notHeld frame
    (fun agree => agree.reserveRecord _ (lowestFree_eq_some lowest) (.inl (asked.active rfl))) fun k party => ?_
  have client := client_reserveRecord i h.client k (createPart m) s
  by_cases own : k = h.client
  · rw [if_pos own] at client
    exact party.of_tables frame (by rw [client]) (by rw [client]) (by rw [client]) (by rw [client]; exact id)
  · rw [if_neg own] at client
    exact party.of_tables frame (by rw [client]) (by rw [client]) (by rw [client]) (by rw [client]; exact id)

/-- A record of an open client gets other staging, and keeps its owner and creation order. -/
theorem recordsHold_setRegion {s : State} {k : ClientId} (hold : RecordsHold s) (notHeld : heldClose s = none) (i : RegionId)
    (r : Region) (owner : regionOwner r = regionOwner (s.region i)) (slot : reservedSlot r = reservedSlot (s.region i))
    (own : regionOwner (s.region i) = some k) (active : (s.client k).state = .active) : RecordsHold (s.setRegion i r) := by
  have frame := setRegion_tables i r s
  refine hold.staged notHeld frame (fun agree => agree.setRegion i r owner slot fun j h => ?_) fun j party => ?_
  · rw [own] at h
    cases h
    exact .inl active
  · have client := client_setRegion i r s j
    exact party.of_tables frame (by rw [client]) (by rw [client]) (by rw [client]) (by rw [client]; exact id)

theorem client_retireReserved (i : RegionId) (k j : ClientId) (s : State) :
    (retireReserved i k s).client j = if j = k then
      { (freeRecords [i] s).client j with
        moves := ((freeRecords [i] s).client j).moves.filter fun v => decide (v.subject ≠ i) }
      else (freeRecords [i] s).client j := by
  simp [retireReserved, client_updClient]

theorem recordsHold_release {s : State} {h : Header} (hold : RecordsHold s) (asked : Asked s .retire h) (i : RegionId) :
    RecordsHold (retireReserved i h.client s) := by
  have frame := retireReserved_tables i h.client s
  refine hold.staged asked.notHeld frame (fun agree => ?_) fun k party => ?_
  · exact (agree.freeRecords (List.nodup_singleton i)).updClient h.client _ rfl
      (.inl (by rw [client_freeRecords]; exact .inl (asked.active rfl)))
  · have freed := party.of_freed [i]
    have client := client_retireReserved i h.client k s
    have held : closeHeld k (retireReserved i h.client s) ↔ closeHeld k (freeRecords [i] s) :=
      closeHeld_congr ((tableFrame_heldClose frame).trans (tableFrame_heldClose (freeRecords_tables [i] s)).symm) k
    have parked : (retireReserved i h.client s).parked = (freeRecords [i] s).parked := by simp [retireReserved]
    by_cases own : k = h.client
    · rw [if_pos own] at client
      exact ClientAgrees.congr freed (by rw [parked]) (by rw [parked]) held (by rw [client]) (by rw [client]) (by rw [client])
        fun e => by rw [client]; simp only [e, List.filter_nil]
    · rw [if_neg own] at client
      exact ClientAgrees.congr freed (by rw [parked]) (by rw [parked]) held (by rw [client]) (by rw [client]) (by rw [client])
        fun e => by rw [client]; exact e

/-- A client with nothing parked gets another record that needs nothing parked, ACTIVE and with terms. -/
theorem recordsHold_activate {s : State} {k : ClientId} (f : Client → Client) (hold : RecordsHold s)
    (notHeld : heldClose s = none) (publishing : (s.client k).state ≠ .publishing) (closing : (s.client k).state ≠ .closing)
    (owned : (f (s.client k)).owned = (s.client k).owned) (active : (f (s.client k)).state = .active)
    (terms : (f (s.client k)).terms ≠ none)
    (flag : (s.client k).parkedEntry = false → (f (s.client k)).parkedEntry = false) : RecordsHold (s.updClient k f) := by
  have frame := updClient_tables k f s
  refine hold.staged notHeld frame (fun agree => agree.updClient k f owned (.inl (.inl active))) fun j party => ?_
  by_cases e : j = k
  · subst e
    obtain ⟨noPublish, noClose, -, noFlag⟩ := party.nothing publishing closing
    unfold PartyAgrees
    rw [client_updClient_same, tableFrame_parked frame]
    refine ClientAgrees.of_nothing ⟨noPublish, noClose, not_closeHeld ((tableFrame_heldClose frame).trans notHeld) j⟩ (flag noFlag)
      ?_ ?_ ?_ ?_ <;> rw [active]
    · nofun
    · nofun
    · exact ⟨fun none => absurd none terms, nofun⟩
    · nofun
  · have client := client_updClient_other e f s
    exact party.of_tables frame (by rw [client]) (by rw [client]) (by rw [client]) (by rw [client]; exact id)

theorem client_parkPublish (k j : ClientId) (tag : Tag) (s : State) :
    (parkPublish k tag s).client j =
      if j = k then { s.client j with state := .publishing, parkedEntry := true } else s.client j := by
  have clients : (parkPublish k tag s).clients =
      (s.updClient k fun c => { c with state := .publishing, parkedEntry := true }).clients := by
    cases s; rfl
  rw [client_congr clients, client_updClient]

/-- A publish is parked (R35, R64). -/
theorem recordsHold_park {s : State} {h : Header} (hold : RecordsHold s) (asked : Asked s .publish h) :
    RecordsHold (parkPublish h.client h.tag s) := by
  have active := asked.active rfl
  have notClosed := terms_ne_none hold (k := h.client) (by simp [active])
  obtain ⟨agree, list, parties, -⟩ := (recordsHold_iff s).mp hold
  obtain ⟨noPublish, noClose, -, -⟩ := (parties h.client).nothing (by simp [active]) (by simp [active])
  have parked : (parkPublish h.client h.tag s).parked = s.parked ++ [.publish h.client h.tag] := by simp [parkPublish]
  refine .of_notHeld rfl ?_ ?_ fun j => ?_
  · exact ((agree.congr (t := { s with parked := s.parked ++ [ParkedEntry.publish h.client h.tag] }) rfl rfl).updClient
      h.client (fun c => { c with state := .publishing, parkedEntry := true }) rfl (.inl (.inr rfl))).congr rfl rfl
  · rw [parked]
    exact list.append (not_clearAmong asked rfl) fun j own => by cases own; exact ⟨noPublish, noClose⟩
  · unfold PartyAgrees
    rw [client_parkPublish, parked]
    split_ifs with e
    · rw [e]
      refine ⟨⟨fun none => absurd none notClosed, nofun⟩, nofun, ⟨fun _ => .inl (by simp), fun _ => rfl⟩,
        ⟨nofun, fun c => ?_⟩, fun _ => rfl, fun _ => .inl (by simp), fun h => absurd h (not_closeHeld rfl _)⟩
      exact absurd (by simpa using c) noClose
    · exact ClientAgrees.congr (parties j) (by simp [Ne.symm e]) (by simp)
        ⟨fun h => absurd h (not_closeHeld rfl j), fun h => absurd h (not_closeHeld asked.notHeld j)⟩ rfl rfl rfl id

/-- A publish is applied by the piece that takes it. -/
theorem recordsHold_publish {s : State} {h : Header} (hold : RecordsHold s) (asked : Asked s .publish h) :
    RecordsHold (applyPublish h.client s).1 := by
  have active := asked.active rfl
  have notClosed := terms_ne_none hold (k := h.client) (by simp [active])
  obtain ⟨agree, list, parties, -⟩ := (recordsHold_iff s).mp hold
  obtain ⟨noPublish, noClose, -, -⟩ := (parties h.client).nothing (by simp [active]) (by simp [active])
  have frame := applyPublish_tables h.client s
  exact .of_notHeld ((tableFrame_heldClose frame).trans asked.notHeld) (agree.applyPublish h.client)
    (by rw [tableFrame_parked frame]; exact list)
    (partyAgrees_applyPublish asked.notHeld ⟨noPublish, noClose⟩ notClosed fun j _ => parties j)

/-- A CLEAR_ALL is parked (R89). -/
theorem recordsHold_parkClear {s : State} {h : Header} (hold : RecordsHold s) (asked : Asked s .clearAll h) :
    RecordsHold { s with parked := s.parked ++ [.clearAll h.tag] } := by
  obtain ⟨agree, list, parties, -⟩ := (recordsHold_iff s).mp hold
  refine .of_notHeld asked.notHeld (agree.congr rfl rfl) (list.append (not_clearAmong asked rfl) nofun) fun j => ?_
  exact ClientAgrees.congr (parties j) (by simp) (by simp) Iff.rfl rfl rfl rfl id

/-- With no copy in progress and no application due nothing is parked (R85). -/
theorem Ready.parked_nil {s : State} (ready : Ready s) (copying : isCopying s = false) (due : s.copyEndDue = false) :
    s.parked = [] := by
  by_contra p
  obtain c | d := ready.parkedWhen p
  · rw [copying] at c; cases c
  · rw [due] at d; cases d

theorem owned_eq_zero {s : State} (hold : RecordsHold s) {k : ClientId} (closed : (s.client k).state = .closed) :
    (s.client k).owned = 0 := by
  rw [hold.ownership.counts, ownedRecords_eq, Finset.card_eq_zero, Finset.filter_eq_empty_iff]
  exact fun i _ own => hold.ownership.closedOwnsNone i k own closed

/-! ### Every operation, and every step -/

/-- Every operation of the engine keeps the agreement of the records. -/
theorem Piece.records {s t : State} (piece : Piece s t) (ready : Ready s) (hold : RecordsHold s) : RecordsHold t := by
  cases piece with
  | quiet q => exact hold.of_tables (by rw [q.frame]) (by rw [q.frame]) (by rw [q.frame]) q.held
  | settle => exact hold.of_leaseFrame (settleLease_frame s)
  | decrement => exact hold.of_leaseFrame (countDown_frame s)
  | claim k => exact hold.of_leaseFrame (handLease_frame _ s)
  | panel p => exact hold.of_tables rfl rfl rfl rfl
  | ignore notOpen => exact hold.of_leaseFrame (noticeTaken_frame _ s)
  | reserve asked checks => exact recordsHold_reserve hold asked checks
  | @edit _ m h i asked checks =>
    obtain ⟨-, owner, -⟩ := editChecks_ok checks
    exact recordsHold_setRegion hold asked.notHeld i _ (by simp) (by cases s.region i <;> rfl) owner (asked.active rfl)
  | @mark _ h i g asked live own =>
    have owner : regionOwner (s.region i) = some h.client := by rw [live, regionOwner_live, own]
    exact recordsHold_setRegion hold asked.notHeld i _ (by simp) (by cases s.region i <;> rfl) owner (asked.active rfl)
  | release asked reserved own => exact recordsHold_release hold asked _
  | @restack _ m h v asked checks =>
    have active := asked.active rfl
    exact recordsHold_activate _ hold asked.notHeld (by simp [active]) (by simp [active]) rfl active
      (terms_ne_none hold (by simp [active])) id
  | discard k notHeld =>
    exact hold.staged notHeld (discardStaging_tables k s) (fun agree => agree.discardStaging k) fun j party =>
      party.discardStaging k
  | park asked copying => exact recordsHold_park hold asked
  | publish asked => exact recordsHold_publish hold asked
  | pop notHeld parked => exact recordsHold_pop hold notHeld parked
  | clear asked copying =>
    have empty := ready.parked_nil copying asked.notDue
    obtain ⟨-, -, parties, -⟩ := (recordsHold_iff s).mp hold
    exact recordsHold_applyClear asked.notHeld empty
      (ClientAgrees.congr (parties 0) (by simp [empty]) (by simp [empty])
        ⟨False.elim, fun h => absurd h (not_closeHeld asked.notHeld 0)⟩ rfl rfl rfl id)
  | parkClear asked copying => exact recordsHold_parkClear hold asked
  | resume asked lapsed =>
    exact (recordsHold_activate (fun c => { c with state := .active }) hold asked.notHeld (by simp [lapsed]) (by simp [lapsed])
      rfl rfl (terms_ne_none hold (by simp [lapsed])) id).of_leaseFrame (askLease_frame _ _)
  | opening asked fields closed =>
    exact (recordsHold_activate _ hold asked.notHeld (by simp [closed]) (by simp [closed]) (owned_eq_zero hold closed).symm rfl
      (by simp) fun _ => rfl).of_leaseFrame (askLease_frame _ _)
  | cancel tag closing parked => exact recordsHold_cancel tag hold closing parked _
  | closePark tag may => exact recordsHold_closePark tag hold may
  | closeNow may => exact recordsHold_closeNow hold may
  | lapse notHeld pending opened =>
    exact recordsHold_lapse (hold.of_leaseFrame (noticeTaken_frame _ s)) notHeld opened

theorem recordsHold_reset : RecordsHold State.reset := by
  have region (i : RegionId) : State.reset.region i = .free := by simp [State.region, State.reset]
  have client (k : ClientId) : State.reset.client k = if k = 0 then supervisorClient else closedClient := by
    simp [State.client, State.reset, Config.supervisor]
  refine .of_notHeld rfl (.of_free region fun k => ?_) .nil fun k => ?_
  · rw [client]; split_ifs <;> rfl
  · have none : ¬ publishParked k [] ∧ ¬ closeParked k [] ∧ ¬ closeHeld k State.reset :=
      ⟨by simp, by simp, not_closeHeld rfl k⟩
    unfold PartyAgrees
    rw [client]
    split_ifs
    · exact .of_nothing none rfl (by simp [supervisorClient]) (by simp [supervisorClient]) (by simp [supervisorClient]) fun _ => rfl
    · exact .of_closed none

/-- What every operation of the engine keeps together with `Ready`, and the other blocks and a reset do too, every step from
a state with the engine at rest keeps. -/
theorem step_keeps_of_pieces {P : State → Prop} (piece : ∀ s t, Piece s t → Ready s → P s → P t)
    (pending : ∀ s l, P s → P { s with pending := l })
    (others : ∀ c s t, c.agent ≠ .requestEngine → c.agent ≠ .resetInput → exec c s = .next t → P s → P t)
    (reset : ∀ level (s : State), P { State.reset with pending := s.pending, lkSel := s.lkSel, resetLow := decide (level = PinLevel.low) })
    {s t : State} (rest : EngineAtRest s) (h : step s = .next t) (p : P s) : P t := by
  unfold step at h
  split at h
  · cases h; exact p
  next c l _ =>
  have p' := pending s l p
  have ready : Ready { s with pending := l } := rest.ready.of_le rfl rfl .inl fun _ _ h => h
  by_cases engine : c.agent = .requestEngine
  · exact ((exec_pieces engine h).keeps (P := fun u => Ready u ∧ P u)
      (fun u v op both => ⟨op.ready both.1, piece u v op both.1 both.2⟩) ⟨ready, p'⟩).2
  by_cases isReset : c.agent = .resetInput
  · cases c with
    | deviceReset level => cases h; exact reset level _
    | _ => cases isReset
  · exact others c _ t engine isReset h p'

/-- Settles O55: each operation of the engine keeps the records in agreement, and the other blocks keep the tables. -/
theorem recordsKept : Obligations.RecordsKept := by
  intro s t rest hold h
  refine step_keeps_of_pieces (P := RecordsHold) (fun _ _ op ready hold => op.records ready hold)
    (fun s l hold => hold.of_tables rfl rfl rfl rfl) (fun c s t engine reset h hold => ?_)
    (fun level s => recordsHold_reset.of_tables rfl rfl rfl rfl) rest h hold
  have tables := exec_tables engine reset h
  exact hold.of_tables tables.regions tables.clients tables.parked tables.heldClose

end Sys2Proof.Machine
end

section
/-! PROOF. The Lease Monitor's work counter by counter, and the supervisor: every operation of the engine and every event of the
Lease Monitor keeps client 0 open and never lapsing (R26, R92 to R97). -/

namespace Sys2Proof.Machine

/-! ### What the messages do -/

theorem leasePeriod_congr {s t : State} {k : ClientId} (terms : (t.client k).terms = (s.client k).terms) :
    leasePeriod t k = leasePeriod s k := by
  unfold leasePeriod; rw [terms]

theorem leaseFrame_client {s t : State} (frame : leaseFrame s t) (k : ClientId) : t.client k = s.client k :=
  client_congr (by rw [frame]) k

/-- What the messages of a list keep each, the list keeps. -/
theorem foldl_takeLeaseMsg_keeps {P : State → Prop} {ms : List LeaseMsg} {s : State}
    (keep : ∀ u m, m ∈ ms → P u → P (takeLeaseMsg u m)) (h : P s) : P (ms.foldl takeLeaseMsg s) := by
  induction ms generalizing s with
  | nil => exact h
  | cons m ms ih => exact ih (fun u x hx => keep u x (List.mem_cons_of_mem m hx)) (keep s m List.mem_cons_self h)

/-- What the messages keep that wait, settling keeps, if it looks at the counters, the set and the clients alone. -/
theorem settleLease_keeps {P : State → Prop} {s : State} (congr : ∀ u v, sameLeases u v → P u → P v)
    (keep : ∀ u m, m ∈ s.leaseInbox → P u → P (takeLeaseMsg u m)) (h : P s) : P (settleLease s) := by
  refine congr (s.leaseInbox.foldl takeLeaseMsg s) _ ⟨rfl, rfl, ?_⟩ (foldl_takeLeaseMsg_keeps keep h)
  rw [foldl_takeLeaseMsg_clients, settleLease_clients]

/-- What waits and the messages asked for, taken in order (log 5). -/
theorem askLease_keeps {P : State → Prop} {s : State} {ms : List LeaseMsg} (congr : ∀ u v, sameLeases u v → P u → P v)
    (keep : ∀ u m, m ∈ s.leaseInbox ∨ m ∈ ms → P u → P (takeLeaseMsg u m)) (h : P s) : P (askLease ms s) :=
  settleLease_keeps (s := { s with leaseInbox := s.leaseInbox ++ ms }) congr
    (fun u m hm => keep u m (List.mem_append.mp hm)) (congr s _ ⟨rfl, rfl, rfl⟩ h)

theorem counter_congr {s t : State} (h : t.counters = s.counters) (k : ClientId) : t.counter k = s.counter k := by
  simp only [State.counter, h]

/-- With claims alone waiting, settling sets each RUNNING counter that has one to its lease period (R95). -/
theorem settleLease_claims {s : State} (claims : ∀ m ∈ s.leaseInbox, ∃ k, m = .claim k) :
    (settleLease s).lapsePending = s.lapsePending ∧ ∀ j, (settleLease s).counter j =
      if LeaseMsg.claim j ∈ s.leaseInbox ∧ (s.counter j).running = true
      then { count := leasePeriod s j, running := true } else s.counter j := by
  have fold (ms : List LeaseMsg) (u : State) (all : ∀ m ∈ ms, ∃ k, m = .claim k) :
      (ms.foldl takeLeaseMsg u).lapsePending = u.lapsePending ∧ ∀ j, (ms.foldl takeLeaseMsg u).counter j =
        if LeaseMsg.claim j ∈ ms ∧ (u.counter j).running = true then { count := leasePeriod u j, running := true }
        else u.counter j := by
    induction ms generalizing u with
    | nil => simp
    | cons m ms ih =>
      obtain ⟨k, rfl⟩ := all m List.mem_cons_self
      obtain ⟨pending, counters⟩ := ih (takeClaim k u) fun m hm => all m (List.mem_cons_of_mem _ hm)
      refine ⟨pending.trans (takeClaim_lapsePending k u), fun j => (counters j).trans ?_⟩
      have client : (takeClaim k u).client j = u.client j := leaseFrame_client (takeLeaseMsg_frame u (.claim k)) j
      have period : leasePeriod (takeClaim k u) j = leasePeriod u j := leasePeriod_congr (by rw [client])
      rw [counter_takeClaim, period]
      by_cases own : j = k
      · subst own
        by_cases running : (u.counter j).running = true <;> simp [running]
      · simp [own]
  obtain ⟨pending, counters⟩ := fold s.leaseInbox s claims
  exact ⟨pending, fun j => (counter_congr (s := s.leaseInbox.foldl takeLeaseMsg s) rfl j).trans (counters j)⟩

theorem counter_countDown (s : State) (k : ClientId) : (countDown s).counter k = decremented (s.counter k) := by
  unfold countDown
  rw [counter_expireCounters]
  simp only [counterSpent, counter_mapCounters, decremented]
  by_cases running : (s.counter k).running = true
  · by_cases last : (s.counter k).count ≤ 1
    · have : (s.counter k).count - 1 = 0 := by omega
      simp [running, last, this]
    · have : ¬ (s.counter k).count - 1 = 0 := by omega
      simp [running, last, this]
  · simp [running]

theorem mem_lapsePending_countDown (s : State) (k : ClientId) :
    k ∈ (countDown s).lapsePending ↔ k ∈ s.lapsePending ∨ ((s.counter k).running = true ∧ (s.counter k).count ≤ 1) := by
  unfold countDown
  rw [mem_lapsePending_expireCounters]
  simp only [counterSpent, counter_mapCounters, State.mapCounters_lapsePending]
  by_cases running : (s.counter k).running = true
  · simp [running, Nat.sub_eq_zero_iff_le]
  · simp [running]

/-! ### The supervisor -/

/-- What the Lease Monitor holds of client 0. -/
structure SupervisorLease (s : State) : Prop where
  counter : s.counter 0 = { count := 0, running := false }
  notPending : (0 : ClientId) ∉ s.lapsePending

theorem SupervisorLease.congr {s t : State} (counters : t.counters = s.counters) (pending : t.lapsePending = s.lapsePending)
    (h : SupervisorLease s) : SupervisorLease t :=
  ⟨by rw [counter_congr counters, h.counter], by rw [pending]; exact h.notPending⟩

theorem SupervisorLease.take {s : State} {m : LeaseMsg} (h : SupervisorLease s) (noLoad : ∀ p, m ≠ .load 0 p) :
    SupervisorLease (takeLeaseMsg s m) := by
  cases m with
  | claim k =>
    refine ⟨?_, by rw [takeLeaseMsg, takeClaim_lapsePending]; exact h.notPending⟩
    rw [takeLeaseMsg, counter_takeClaim, h.counter]
    split_ifs with own
    · rw [← own.1, h.counter] at own
      simp at own
    · rfl
  | load k p =>
    refine ⟨?_, by rw [takeLeaseMsg, takeLoad_lapsePending]; exact h.notPending⟩
    rw [takeLeaseMsg, counter_takeLoad, if_neg, h.counter]
    rintro rfl
    exact noLoad p rfl
  | stop k =>
    refine ⟨?_, by rw [takeLeaseMsg, takeStop_lapsePending]; simp [h.notPending]⟩
    rw [takeLeaseMsg, counter_takeStop, h.counter]
    split_ifs <;> rfl

theorem SupervisorLease.settle {s : State} (h : SupervisorLease s) (noLoad : ∀ p, LeaseMsg.load 0 p ∉ s.leaseInbox) :
    SupervisorLease (settleLease s) :=
  settleLease_keeps (fun _ _ same h => h.congr same.1 same.2.1)
    (fun _ _ hm h => h.take fun p e => noLoad p (e ▸ hm)) h

theorem SupervisorLease.ask {s : State} {ms : List LeaseMsg} (h : SupervisorLease s)
    (noLoad : ∀ p, LeaseMsg.load 0 p ∉ s.leaseInbox ∧ LeaseMsg.load 0 p ∉ ms) : SupervisorLease (askLease ms s) :=
  askLease_keeps (fun _ _ same h => h.congr same.1 same.2.1)
    (fun _ _ hm h => h.take fun p e => by subst e; exact hm.elim (noLoad p).1 (noLoad p).2) h

theorem SupervisorLease.expire {s : State} (h : SupervisorLease s) : SupervisorLease (expireCounters s) := by
  have notSpent : counterSpent s 0 = false := by simp [counterSpent, h.counter]
  refine ⟨by rw [counter_expireCounters, notSpent]; exact h.counter, ?_⟩
  rw [mem_lapsePending_expireCounters, notSpent]
  simpa using h.notPending

theorem SupervisorLease.countDown {s : State} (h : SupervisorLease s) : SupervisorLease (countDown s) := by
  refine ⟨by rw [counter_countDown, h.counter]; rfl, ?_⟩
  rw [mem_lapsePending_countDown, h.counter]
  simpa using h.notPending

/-- What the tables hold of client 0. -/
structure SupervisorOpen (s : State) : Prop where
  state : isOpen (s.client 0)
  terms : (s.client 0).terms = some { cls := .guarded, quota := 64, period := 0 }
  noClose : ¬ closeParked 0 s.parked
  noHeldClose : ¬ closeHeld 0 s

theorem supervisorHolds_iff (s : State) :
    SupervisorHolds s ↔ SupervisorLease s ∧ SupervisorOpen s ∧ ∀ p, LeaseMsg.load 0 p ∉ s.leaseInbox :=
  ⟨fun ⟨state, terms, counter, pending, load, close, held⟩ =>
    ⟨⟨counter, pending⟩, ⟨state, terms, fun ⟨tag, h⟩ => close tag h, fun ⟨parks, h⟩ => held parks h⟩, load⟩,
  fun ⟨⟨counter, pending⟩, ⟨state, terms, close, held⟩, load⟩ =>
    ⟨state, terms, counter, pending, load, fun tag h => close ⟨tag, h⟩, fun parks h => held ⟨parks, h⟩⟩⟩

theorem SupervisorOpen.of_le {s t : State} (h : SupervisorOpen s) (state : isOpen (t.client 0))
    (terms : (t.client 0).terms = (s.client 0).terms) (parked : closeParked 0 t.parked → closeParked 0 s.parked)
    (held : closeHeld 0 t → closeHeld 0 s) : SupervisorOpen t :=
  ⟨state, terms.trans h.terms, fun c => h.noClose (parked c), fun c => h.noHeldClose (held c)⟩

theorem SupervisorOpen.congr {s t : State} (h : SupervisorOpen s) (client : t.client 0 = s.client 0)
    (parked : t.parked = s.parked) (held : heldClose t = heldClose s) : SupervisorOpen t :=
  h.of_le (by rw [client]; exact h.state) (by rw [client]) (by rw [parked]; exact id) (closeHeld_congr held 0).mp

/-- A change of the tables that leaves client 0 open with its terms. -/
theorem SupervisorOpen.of_tables {s t : State} (h : SupervisorOpen s) (frame : tableFrame s t) (state : isOpen (t.client 0))
    (terms : (t.client 0).terms = (s.client 0).terms) : SupervisorOpen t :=
  h.of_le state terms (by rw [tableFrame_parked frame]; exact id) (closeHeld_congr (tableFrame_heldClose frame) 0).mp

theorem SupervisorOpen.of_leaseFrame {s t : State} (h : SupervisorOpen s) (frame : leaseFrame s t) : SupervisorOpen t :=
  h.congr (leaseFrame_client frame 0) (by rw [frame]) (heldClose_congr (by rw [frame]))

/-- A client's record is kept open with its terms, whatever else it gets. -/
theorem SupervisorOpen.updClient {s : State} (h : SupervisorOpen s) (k : ClientId) (f : Client → Client)
    (own : k = 0 → isOpen (f (s.client 0)) ∧ (f (s.client 0)).terms = (s.client 0).terms) : SupervisorOpen (s.updClient k f) := by
  have client := client_updClient k 0 f s
  split_ifs at client with e
  · obtain ⟨state, terms⟩ := own e.symm
    exact h.of_tables (updClient_tables k f s) (by rw [client]; exact state) (by rw [client, terms])
  · exact h.of_tables (updClient_tables k f s) (by rw [client]; exact h.state) (by rw [client])

theorem SupervisorOpen.freeRecords {s : State} (h : SupervisorOpen s) (ids : List RegionId) :
    SupervisorOpen (freeRecords ids s) :=
  h.of_tables (freeRecords_tables ids s) (by rw [client_freeRecords]; exact h.state) (by rw [client_freeRecords])

theorem SupervisorOpen.discardStaging {s : State} (h : SupervisorOpen s) (k : ClientId) :
    SupervisorOpen (discardStaging k s) := by
  have client := client_discardStaging k 0 s
  rw [client_freeRecords] at client
  split_ifs at client <;>
    exact h.of_tables (discardStaging_tables k s) (by rw [client]; exact h.state) (by rw [client])

theorem SupervisorOpen.applyPublish {s : State} (h : SupervisorOpen s) (k : ClientId) :
    SupervisorOpen (applyPublish k s).1 := by
  have refused : SupervisorOpen (leavePublishing k s) := h.updClient k _ fun _ => ⟨.inl rfl, rfl⟩
  unfold Machine.applyPublish
  split
  · exact refused
  · have retired : (retireStep k s).client 0 = _ := client_freeRecords (s.idsWhere (isRetiringOf k)) s 0
    have client := client_publishSteps k 0 s
    rw [retired] at client
    split_ifs at client
    · exact h.of_tables (publishSteps_tables k s) (by rw [client]; exact .inl rfl) (by rw [client])
    · exact h.of_tables (publishSteps_tables k s) (by rw [client]; exact h.state) (by rw [client])

theorem SupervisorOpen.applyClose {s : State} (h : SupervisorOpen s) {k : ClientId} (other : k ≠ 0) :
    SupervisorOpen (applyClose k s) :=
  (h.freeRecords (s.idsWhere (isLiveOf k))).updClient k _ fun e => absurd e other

theorem SupervisorOpen.applyClear {s : State} (h : SupervisorOpen s) : SupervisorOpen (applyClear s) := by
  have client : (Machine.applyClear s).client 0 = { s.client 0 with owned := 0, moves := [] } := by
    rw [client_applyClear]; rfl
  exact h.of_le (by rw [client]; exact h.state) (by rw [client]) (by simp) (closeHeld_congr (heldClose_congr (by simp)) 0).mp

/-- A close names another client than 0, whether it waits or is in hand. -/
theorem CloseMay.other {s : State} {k : ClientId} {parks : Bool} (may : CloseMay k parks s) (h : SupervisorOpen s) : k ≠ 0 := by
  obtain held | ⟨closing, -, -⟩ := may
  · rintro rfl
    exact h.noHeldClose ⟨parks, held⟩
  · exact closing.target

theorem SupervisorOpen.removePublish {s : State} (h : SupervisorOpen s) {k : ClientId} : SupervisorOpen (removePublish k s) := by
  have client := client_removePublish k 0 s
  have parked : closeParked 0 (Machine.removePublish k s).parked → closeParked 0 s.parked := by
    rw [removePublish_parked, closeParked_filter]; exact id
  have held := (closeHeld_congr (heldClose_congr (s := s) (t := Machine.removePublish k s) (by simp)) 0).mp
  split_ifs at client
  · exact h.of_le (by rw [client]; exact h.state) (by rw [client]) parked held
  · exact h.of_le (by rw [client]; exact h.state) (by rw [client]) parked held

theorem SupervisorOpen.lapsedState {s : State} (h : SupervisorOpen s) {k : ClientId} (other : k ≠ 0) :
    SupervisorOpen (lapsedState k s) := by
  have removed : SupervisorOpen (if (s.client k).parkedEntry then Machine.removePublish k s else s) := by
    split_ifs
    · exact h.removePublish
    · exact h
  exact (removed.discardStaging k).updClient k _ fun e => absurd e other

/-- Every operation of the engine leaves client 0 open. -/
theorem Piece.supervisorOpen {s t : State} (piece : Piece s t) (notPending : (0 : ClientId) ∉ s.lapsePending)
    (h : SupervisorOpen s) : SupervisorOpen t := by
  have ne_of_state {k : ClientId} (notOpen : ¬ isOpen (s.client k)) : k ≠ 0 := by
    rintro rfl
    exact notOpen h.state
  cases piece with
  | quiet q => exact h.congr (client_congr (by rw [q.frame]) 0) (by rw [q.frame]) q.held
  | settle => exact h.of_leaseFrame (settleLease_frame s)
  | decrement => exact h.of_leaseFrame (countDown_frame s)
  | claim k => exact h.of_leaseFrame (handLease_frame _ s)
  | panel p => exact h.congr rfl rfl rfl
  | ignore notOpen => exact h.of_leaseFrame (noticeTaken_frame _ s)
  | @reserve _ m hd i asked checks =>
    have client := client_reserveRecord i hd.client 0 (createPart m) s
    split_ifs at client <;>
      exact h.of_tables (reserveRecord_tables _ _ _ s) (by rw [client]; exact h.state) (by rw [client])
  | edit asked checks =>
    exact h.of_tables (setRegion_tables _ _ s) (by rw [client_setRegion]; exact h.state) (by rw [client_setRegion])
  | mark asked live own =>
    exact h.of_tables (setRegion_tables _ _ s) (by rw [client_setRegion]; exact h.state) (by rw [client_setRegion])
  | @release _ hd i g asked reserved own =>
    have client := client_retireReserved i hd.client 0 s
    rw [client_freeRecords] at client
    split_ifs at client <;>
      exact h.of_tables (retireReserved_tables _ _ s) (by rw [client]; exact h.state) (by rw [client])
  | restack asked checks => exact h.updClient _ _ fun _ => ⟨h.state, rfl⟩
  | discard k notHeld => exact h.discardStaging k
  | @park _ hd asked copying =>
    have client := client_parkPublish hd.client 0 hd.tag s
    have held : closeHeld 0 (parkPublish hd.client hd.tag s) → closeHeld 0 s := fun c => absurd c (not_closeHeld rfl 0)
    have parked : closeParked 0 (parkPublish hd.client hd.tag s).parked → closeParked 0 s.parked := by simp [parkPublish]
    split_ifs at client
    · exact h.of_le (by rw [client]; exact .inr rfl) (by rw [client]) parked held
    · exact h.of_le (by rw [client]; exact h.state) (by rw [client]) parked held
  | publish asked => exact h.applyPublish _
  | @pop _ e rest notHeld parked =>
    have popped : SupervisorOpen { s with parked := rest } :=
      h.of_le h.state rfl (fun c => by rw [parked]; simp [c]) id
    cases e with
    | publish k tag => exact popped.applyPublish k
    | close k tag =>
      refine popped.applyClose ?_
      rintro rfl
      exact h.noClose (by rw [parked]; simp)
    | clearAll tag => exact popped.applyClear
  | clear asked copying => exact h.applyClear
  | parkClear asked copying => exact h.of_le h.state rfl (by simp) id
  | resume asked lapsed =>
    exact (h.updClient _ _ fun e => absurd e (ne_of_state (by simp [isOpen, lapsed]))).of_leaseFrame (askLease_frame _ _)
  | opening asked fields closed =>
    exact (h.updClient _ _ fun e => absurd e (ne_of_state (by simp [isOpen, closed]))).of_leaseFrame (askLease_frame _ _)
  | @cancel _ k ptag tag closing parked =>
    have removed := h.removePublish (k := k)
    exact removed.of_le removed.state rfl id fun ⟨parks, held⟩ => by
      cases held
      exact absurd rfl closing.target
  | @closePark _ k tag may =>
    have other := may.other h
    rw [closeTail_parks]
    have begun : SupervisorOpen (closeBegun k s) :=
      (h.of_leaseFrame (askLease_frame _ s)).updClient k _ fun e => absurd e other
    have flagged := begun.updClient k (fun c => { c with parkedEntry := true }) fun e => absurd e other
    refine flagged.of_le flagged.state rfl (fun c => ?_) fun c => absurd c (not_closeHeld rfl 0)
    have kept : closeParked 0 s.parked := by simpa [other] using c
    simpa [closeBegun] using kept
  | @closeNow _ k may =>
    have other := may.other h
    have begun : SupervisorOpen (closeBegun k s) :=
      (h.of_leaseFrame (askLease_frame _ s)).updClient k _ fun e => absurd e other
    have closed := begun.applyClose other
    exact closed.of_le closed.state rfl id fun c => absurd c (not_closeHeld rfl 0)
  | @lapse _ k notHeld pending opened =>
    refine (h.of_leaseFrame (noticeTaken_frame k s)).lapsedState ?_
    rintro rfl
    exact notPending pending

/-! ### What an operation does to the Lease Monitor -/

/-- The fields of a message that OPEN_CLIENT accepts (R28). -/
theorem openFields_eq_some {m : List Word} {k : ClientId} {t : Terms} (h : openFields m = some (k, t)) :
    k ≠ 0 ∧ 1 ≤ t.quota ∧ t.quota ≤ 64 ∧ t.period ≤ 1023 := by
  unfold openFields at h
  split at h
  · next target _ =>
    split_ifs at h with range
    cases h
    exact ⟨(targetNumber_eq_some target).2, range⟩
  · cases h

/-- What an operation does to the counters, the Lapse Pending Set and the messages that wait. -/
inductive LeaseWork (s t : State) : Prop
  | kept (h : leasesKept s t)
  | settle (h : leasesKept (settleLease s) t)
  | decrement (h : leasesKept (countDown s) t)
  | claim (k : ClientId) (h : leasesKept (handLease (.claim k) s) t)
  /-- The counter of a LAPSED client, or of a CLOSED one that opens, is loaded. -/
  | load (k : ClientId) (p : Nat) (u : State) (before : leasesKept s u) (h : leasesKept (askLease [.load k p] u) t)
      (state : ((s.client k).state = .lapsed ∧ p = leasePeriod s k) ∨ ((s.client k).state = .closed ∧ p ≤ 1023))
      (own : leasePeriod u k = p) (periods : ∀ j, j ≠ k → leasePeriod u j = leasePeriod s j)
  | stop (k : ClientId) (h : leasesKept (askLease [.stop k] s) t)
  | clear (h : leasesKept (applyClear s) t)
  | notice (k : ClientId) (h : leasesKept (noticeTaken k s) t)

theorem leasesKept_refl (s : State) : leasesKept s s := ⟨rfl, rfl, rfl⟩

theorem leasesKept_trans {s t u : State} (h : leasesKept s t) (g : leasesKept t u) : leasesKept s u :=
  ⟨g.1.trans h.1, g.2.1.trans h.2.1, g.2.2.trans h.2.2⟩

theorem leasesKept_of_tables {s t : State} (frame : tableFrame s t) : leasesKept s t := by
  unfold leasesKept
  rw [frame]
  exact ⟨rfl, rfl, rfl⟩

theorem applyClear_leasesKept {s u : State} (h : leasesKept s u) (clients : u.clients = s.clients) :
    leasesKept (applyClear s) (applyClear u) := by
  have ask := applyClear_leases s
  have ask' := applyClear_leases u
  have same : sameLeases (s.leaseInbox.foldl takeLeaseMsg s) (s.leaseInbox.foldl takeLeaseMsg u) :=
    foldl_takeLeaseMsg_same _ ⟨h.2.1, h.2.2, clients⟩
  refine ⟨ask'.inbox.trans ask.inbox.symm, counters_ext fun j => ?_, ask'.pending.trans ask.pending.symm⟩
  have settled : (settleLease u).counter j = (settleLease s).counter j := by
    refine counter_congr ?_ j
    show (u.leaseInbox.foldl takeLeaseMsg u).counters = (s.leaseInbox.foldl takeLeaseMsg s).counters
    rw [h.1, same.1]
  rw [ask.counters, ask'.counters, settled]

theorem lapsedState_leasesKept (k : ClientId) (s : State) : leasesKept s (lapsedState k s) := by
  unfold lapsedState
  refine leasesKept_trans ?_ (leasesKept_of_tables (tableFrame_trans (discardStaging_tables k _) (updClient_tables k _ _)))
  split_ifs
  · exact ⟨by simp, by simp, by simp⟩
  · exact leasesKept_refl s

theorem Piece.leases {s t : State} (piece : Piece s t) : LeaseWork s t := by
  cases piece with
  | quiet q => exact .kept ⟨by rw [q.frame], by rw [q.frame], by rw [q.frame]⟩
  | settle => exact .settle (leasesKept_refl _)
  | decrement => exact .decrement (leasesKept_refl _)
  | claim k => exact .claim k (leasesKept_refl _)
  | panel p => exact .kept (leasesKept_refl _)
  | ignore notOpen => exact .notice _ (leasesKept_refl _)
  | reserve asked checks => exact .kept (leasesKept_of_tables (reserveRecord_tables _ _ _ s))
  | edit asked checks => exact .kept (leasesKept_of_tables (setRegion_tables _ _ s))
  | mark asked live own => exact .kept (leasesKept_of_tables (setRegion_tables _ _ s))
  | release asked reserved own => exact .kept (leasesKept_of_tables (retireReserved_tables _ _ s))
  | restack asked checks => exact .kept (leasesKept_of_tables (updClient_tables _ _ s))
  | discard k notHeld => exact .kept (leasesKept_of_tables (discardStaging_tables k s))
  | park asked copying => exact .kept ⟨by simp [parkPublish], by simp [parkPublish], by simp [parkPublish]⟩
  | publish asked => exact .kept (leasesKept_of_tables (applyPublish_tables _ s))
  | @pop _ e rest notHeld parked =>
    have popped : leasesKept s { s with parked := rest } := ⟨rfl, rfl, rfl⟩
    cases e with
    | publish k tag => exact .kept (leasesKept_trans popped (leasesKept_of_tables (applyPublish_tables k _)))
    | close k tag => exact .kept (leasesKept_trans popped (leasesKept_of_tables (applyClose_tables k _)))
    | clearAll tag => exact .clear (applyClear_leasesKept popped rfl)
  | clear asked copying => exact .clear (leasesKept_refl _)
  | parkClear asked copying => exact .kept (leasesKept_refl _)
  | @resume _ h asked lapsed =>
    exact .load h.client _ _ (leasesKept_of_tables (updClient_tables _ _ s)) (leasesKept_refl _) (.inl ⟨lapsed, rfl⟩)
      (leasePeriod_congr (by rw [client_updClient_same])) fun j ne => leasePeriod_congr (by rw [client_updClient_other ne])
  | @opening _ m h k tm asked fields closed =>
    obtain ⟨-, -, -, period⟩ := openFields_eq_some fields
    exact .load k tm.period _ (leasesKept_of_tables (updClient_tables _ _ s)) (leasesKept_refl _) (.inr ⟨closed, period⟩)
      (by unfold leasePeriod; rw [client_updClient_same]) fun j ne => leasePeriod_congr (by rw [client_updClient_other ne])
  | cancel tag closing parked => exact .kept ⟨by simp, by simp, by simp⟩
  | @closePark _ k tag may =>
    rw [closeTail_parks]
    exact .stop k ⟨by simp [closeBegun], by simp [closeBegun], by simp [closeBegun]⟩
  | @closeNow _ k may =>
    have applied := leasesKept_of_tables (applyClose_tables k (closeBegun k s))
    have begun : leasesKept (askLease [.stop k] s) (closeBegun k s) := leasesKept_of_tables (updClient_tables _ _ _)
    exact .stop k (leasesKept_trans (leasesKept_trans begun applied) ⟨rfl, rfl, rfl⟩)
  | @lapse _ k notHeld pending opened => exact .notice k (lapsedState_leasesKept k _)

/-! ### The supervisor's lease -/

/-- No operation of the engine runs client 0's counter, puts it in the Lapse Pending Set or leaves a load for it (R26, R97). -/
theorem LeaseWork.supervisor {s t : State} (work : LeaseWork s t) (h : SupervisorLease s) (opened : isOpen (s.client 0))
    (noLoad : ∀ p, LeaseMsg.load 0 p ∉ s.leaseInbox) : SupervisorLease t ∧ ∀ p, LeaseMsg.load 0 p ∉ t.leaseInbox := by
  have via {u : State} (lease : SupervisorLease u) (load : ∀ p, LeaseMsg.load 0 p ∉ u.leaseInbox) (kept : leasesKept u t) :
      SupervisorLease t ∧ ∀ p, LeaseMsg.load 0 p ∉ t.leaseInbox :=
    ⟨lease.congr kept.2.1 kept.2.2, fun p => by rw [kept.1]; exact load p⟩
  cases work with
  | kept kept => exact via h noLoad kept
  | settle kept => exact via (h.settle noLoad) (by simp) kept
  | decrement kept => exact via h.countDown (by simpa using noLoad) kept
  | claim k kept =>
    refine via (u := handLease (.claim k) s) (.congr (s := s) rfl rfl h) (fun p => ?_) kept
    simpa [handLease] using noLoad p
  | load k p u before kept state =>
    have other : k ≠ 0 := by
      rintro rfl
      obtain ⟨e, -⟩ | ⟨e, -⟩ := state <;> simp [isOpen, e] at opened
    refine via ((h.congr before.2.1 before.2.2).ask fun q => ⟨by rw [before.1]; exact noLoad q, ?_⟩) ?_ kept
    · simpa using fun e _ => other e.symm
    · rw [(askLease_load k p u).inbox]; simp
  | stop k kept =>
    refine via (h.ask fun p => ⟨noLoad p, by simp⟩) ?_ kept
    rw [(askLease_stop k s).inbox]; simp
  | clear kept =>
    obtain ⟨inbox, counters, pending⟩ := applyClear_leases s
    refine via ⟨?_, by rw [pending]; simp⟩ (by rw [inbox]; simp) kept
    rw [counters, if_pos rfl, (h.settle noLoad).counter]
  | notice k kept => exact via (u := noticeTaken k s) ⟨h.counter, fun pending => h.notPending (List.mem_of_mem_filter pending)⟩ noLoad kept

theorem Piece.supervisor {s t : State} (piece : Piece s t) (h : SupervisorHolds s) : SupervisorHolds t := by
  obtain ⟨lease, opened, noLoad⟩ := (supervisorHolds_iff s).mp h
  obtain ⟨lease', noLoad'⟩ := piece.leases.supervisor lease opened.state noLoad
  exact (supervisorHolds_iff t).mpr ⟨lease', piece.supervisorOpen lease.notPending opened, noLoad'⟩

/-! ### The Lease Monitor's own events -/

/-- What an event of the Lease Monitor does: nothing, the oldest message taken, a decrement, or an expiry. -/
def MonitorEvent (s t : State) : Prop :=
  t = s ∨ (∃ m rest, s.leaseInbox = m :: rest ∧ t = takeLeaseMsg { s with leaseInbox := rest } m)
    ∨ t = countDown s ∨ t = expireCounters s

theorem exec_monitorEvent {c : Instr} {s t : State} (monitor : c.agent = .leaseMonitor) (h : exec c s = .next t) :
    MonitorEvent s t := by
  have high {f : State → State} (effect : MonitorEvent s (f s)) (g : whileHigh f s = .next t) : MonitorEvent s t :=
    whileHigh_rel (.inl rfl) effect g
  cases c with
  | reloadClaim =>
    refine high (f := claimWaiting) ?_ h
    unfold claimWaiting
    split
    · next k rest inbox => exact .inr (.inl ⟨.claim k, rest, inbox, rfl⟩)
    · exact .inl rfl
  | leaseLoad =>
    refine high (f := loadWaiting) ?_ h
    unfold loadWaiting
    split
    · next k p rest inbox => exact .inr (.inl ⟨.load k p, rest, inbox, rfl⟩)
    · exact .inl rfl
  | leaseStop =>
    refine high (f := stopWaiting) ?_ h
    unfold stopWaiting
    split
    · next k rest inbox => exact .inr (.inl ⟨.stop k, rest, inbox, rfl⟩)
    · exact .inl rfl
  | leaseFrameStart => exact high (f := countDown) (.inr (.inr (.inl rfl))) h
  | leaseExpiry => exact high (f := expireCounters) (.inr (.inr (.inr rfl))) h
  | _ => cases monitor

theorem takeLeaseMsg_leaseInbox (s : State) (m : LeaseMsg) : (takeLeaseMsg s m).leaseInbox = s.leaseInbox := by
  cases m with
  | claim k => simp only [takeLeaseMsg, takeClaim]; split <;> simp
  | load k p => simp [takeLeaseMsg, takeLoad]
  | stop k => simp [takeLeaseMsg, takeStop]

/-- What every operation of the engine, and every other block's events, keep, and reset meets, every step keeps. -/
theorem step_keeps_of_blocks {P : State → Prop} (piece : ∀ s t, Piece s t → P s → P t)
    (pending : ∀ s l, P s → P { s with pending := l })
    (others : ∀ c s t, c.agent ≠ .requestEngine → c.agent ≠ .resetInput → exec c s = .next t → P s → P t)
    (reset : ∀ level (s : State), P { State.reset with pending := s.pending, lkSel := s.lkSel, resetLow := decide (level = PinLevel.low) })
    {s t : State} (h : step s = .next t) (p : P s) : P t := by
  unfold step at h
  split at h
  · cases h; exact p
  next c l _ =>
  have p' := pending s l p
  by_cases engine : c.agent = .requestEngine
  · exact (exec_pieces engine h).keeps piece p'
  by_cases isReset : c.agent = .resetInput
  · cases c with
    | deviceReset level => cases h; exact reset level _
    | _ => cases isReset
  · exact others c _ t engine isReset h p'

theorem supervisorHolds_reset : SupervisorHolds State.reset := by
  have client : State.reset.client 0 = supervisorClient := by simp [State.client, State.reset, Config.supervisor]
  have counter : State.reset.counter 0 = { count := 0, running := false } := by simp [State.counter, State.reset]
  refine (supervisorHolds_iff _).mpr ⟨⟨counter, by simp [State.reset]⟩, ⟨?_, ?_, ?_, not_closeHeld rfl 0⟩, by simp [State.reset]⟩
  · rw [client]; exact .inl rfl
  · rw [client]; rfl
  · simp [State.reset]

/-- The fields that `SupervisorHolds` reads. -/
theorem SupervisorHolds.congr {s t : State} (h : SupervisorHolds s) (clients : t.clients = s.clients)
    (parked : t.parked = s.parked) (held : heldClose t = heldClose s) (leases : leasesKept s t) : SupervisorHolds t := by
  obtain ⟨lease, opened, noLoad⟩ := (supervisorHolds_iff s).mp h
  exact (supervisorHolds_iff t).mpr ⟨lease.congr leases.2.1 leases.2.2, opened.congr (client_congr clients 0) parked held,
    fun p => by rw [leases.1]; exact noLoad p⟩

theorem SupervisorHolds.monitor {c : Instr} {s t : State} (h : SupervisorHolds s) (monitor : c.agent = .leaseMonitor)
    (run : exec c s = .next t) : SupervisorHolds t := by
  obtain ⟨lease, opened, noLoad⟩ := (supervisorHolds_iff s).mp h
  refine (supervisorHolds_iff t).mpr ⟨?_, opened.of_leaseFrame (exec_leaseFrame monitor run), ?_⟩ <;>
    obtain rfl | ⟨m, rest, inbox, rfl⟩ | rfl | rfl := exec_monitorEvent monitor run
  · exact lease
  · exact (SupervisorLease.congr (s := s) (t := { s with leaseInbox := rest }) rfl rfl lease).take fun p e =>
      noLoad p (by rw [inbox, e]; exact List.mem_cons_self)
  · exact lease.countDown
  · exact lease.expire
  · exact noLoad
  · rw [takeLeaseMsg_leaseInbox]
    exact fun p hp => noLoad p (by rw [inbox]; exact List.mem_cons_of_mem m hp)
  · simpa using noLoad
  · simpa using noLoad

/-- Settles O54: no operation, event or reset closes or lapses client 0. -/
theorem supervisorKept : Obligations.SupervisorKept := by
  intro s t h run
  refine step_keeps_of_blocks (P := SupervisorHolds) (fun _ _ op h => op.supervisor h)
    (fun s l h => h.congr rfl rfl rfl ⟨rfl, rfl, rfl⟩) (fun c s t engine reset run h => ?_)
    (fun level s => supervisorHolds_reset.congr rfl rfl rfl ⟨rfl, rfl, rfl⟩) run h
  by_cases monitor : c.agent = .leaseMonitor
  · exact h.monitor monitor run
  · have inert := exec_inert engine monitor reset run
    exact h.congr inert.clients inert.parked inert.heldClose ⟨inert.leaseInbox, inert.counters, inert.lapsePending⟩

end Sys2Proof.Machine
end

section
/-! PROOF. Every step keeps quotas, owned counts, moves, counters and the Lapse Pending Set in range, and the lease counters as the
client records have them (R21 to R24, R44, R92, R97). -/

namespace Sys2Proof.Machine

/-! ### The client records -/

/-- The subjects of a client's moves, in their order (R44). -/
def moveSubjects (c : Client) : List RegionId :=
  c.moves.map (·.subject)

/-- The limits on one client's record (R21, R23, R24, R44). -/
structure ClientLimit (s : State) (k : ClientId) : Prop where
  terms : ∀ t, (s.client k).terms = some t → 1 ≤ t.quota ∧ t.quota ≤ 64 ∧ t.period ≤ 1023 ∧ (s.client k).owned ≤ t.quota
  moves : (moveSubjects (s.client k)).length ≤ 8
  subjects : ∀ i ∈ moveSubjects (s.client k), regionOwner (s.region i) = some k

/-- A record with no more terms, moves and regions than before keeps the limits, when the subjects of its moves stay its own. -/
theorem ClientLimit.of_le {s t : State} {k : ClientId} (h : ClientLimit s k)
    (terms : ∀ tm, (t.client k).terms = some tm → (s.client k).terms = some tm)
    (owned : (t.client k).owned ≤ (s.client k).owned)
    (subjects : (moveSubjects (t.client k)).Sublist (moveSubjects (s.client k)))
    (owners : ∀ i ∈ moveSubjects (t.client k), regionOwner (s.region i) = some k → regionOwner (t.region i) = some k) :
    ClientLimit t k := by
  refine ⟨fun tm e => ?_, subjects.length_le.trans h.moves, fun i hi => owners i hi (h.subjects i (subjects.subset hi))⟩
  obtain ⟨low, high, period, quota⟩ := h.terms tm (terms tm e)
  exact ⟨low, high, period, owned.trans quota⟩

theorem ClientLimit.congr {s t : State} {k : ClientId} (h : ClientLimit s k) (client : t.client k = s.client k)
    (owners : ∀ i, regionOwner (t.region i) = regionOwner (s.region i)) : ClientLimit t k :=
  h.of_le (by rw [client]; exact fun _ e => e) (by rw [client]) (by rw [client]) fun i _ own => by rw [owners]; exact own

/-- A record whose moves are emptied, with no more terms and regions than before. -/
theorem ClientLimit.of_emptied {s t : State} {k : ClientId} (h : ClientLimit s k)
    (terms : (t.client k).terms = (s.client k).terms) (owned : (t.client k).owned ≤ (s.client k).owned)
    (moves : (t.client k).moves = []) : ClientLimit t k := by
  have none : moveSubjects (t.client k) = [] := by rw [moveSubjects, moves, List.map_nil]
  exact h.of_le (by rw [terms]; exact fun _ e => e) owned (by rw [none]; exact List.nil_sublist _) (by rw [none]; nofun)

/-- A client without terms and moves is within the limits. -/
theorem ClientLimit.of_nothing {s : State} {k : ClientId} (terms : (s.client k).terms = none) (moves : (s.client k).moves = []) :
    ClientLimit s k := by
  refine ⟨fun tm e => ?_, by simp [moveSubjects, moves], by simp [moveSubjects, moves]⟩
  rw [terms] at e; cases e

theorem moveSubjects_markDead (ids : List RegionId) (c : Client) :
    moveSubjects { c with moves := c.moves.map (markDead ids) } = moveSubjects c := by
  simp [moveSubjects, markDead, Function.comp_def]

theorem moveSubjects_freeRecords (ids : List RegionId) (s : State) (k : ClientId) :
    moveSubjects ((freeRecords ids s).client k) = moveSubjects (s.client k) := by
  rw [client_freeRecords]
  exact moveSubjects_markDead ids (s.client k)

theorem owned_freeRecords_le (ids : List RegionId) (s : State) (k : ClientId) :
    ((freeRecords ids s).client k).owned ≤ (s.client k).owned := by
  rw [client_freeRecords]
  exact Nat.sub_le _ _

theorem terms_freeRecords (ids : List RegionId) (s : State) (k : ClientId) :
    ((freeRecords ids s).client k).terms = (s.client k).terms := by
  rw [client_freeRecords]

/-- Freed records are not the subjects of another client's moves. -/
theorem ClientLimit.of_freed {s t : State} {k : ClientId} {ids : List RegionId} (h : ClientLimit s k)
    (client : t.client k = (freeRecords ids s).client k) (others : ∀ i ∈ ids, regionOwner (s.region i) ≠ some k)
    (kept : ∀ i, i ∉ ids → regionOwner (t.region i) = regionOwner (s.region i)) : ClientLimit t k := by
  refine h.of_le (by rw [client, terms_freeRecords]; exact fun _ e => e) (by rw [client]; exact owned_freeRecords_le ids s k)
    (by rw [client, moveSubjects_freeRecords]) fun i _ own => ?_
  rw [kept i fun freed => others i freed own]
  exact own

/-- The limits on every client's record. -/
def TablesLimited (s : State) : Prop := ∀ k, ClientLimit s k

theorem TablesLimited.congr {s t : State} (h : TablesLimited s) (clients : t.clients = s.clients) (regions : t.regions = s.regions) :
    TablesLimited t :=
  fun k => (h k).congr (client_congr clients k) fun i => by rw [region_congr regions]

/-- A change of one record's state or flag. -/
theorem TablesLimited.updClient {s : State} (h : TablesLimited s) (k : ClientId) (f : Client → Client)
    (terms : (f (s.client k)).terms = (s.client k).terms) (owned : (f (s.client k)).owned = (s.client k).owned)
    (moves : (f (s.client k)).moves = (s.client k).moves) : TablesLimited (s.updClient k f) := by
  have subjects : moveSubjects (f (s.client k)) = moveSubjects (s.client k) := by rw [moveSubjects, moves, moveSubjects]
  intro j
  have client := client_updClient k j f s
  split_ifs at client with own
  · subst own
    exact (h j).of_le (by rw [client, terms]; exact fun _ e => e) (by rw [client, owned]) (by rw [client, subjects])
      fun i _ own => by rw [region_updClient]; exact own
  · exact (h j).congr client fun i => by rw [region_updClient]

theorem TablesLimited.setRegion {s : State} (h : TablesLimited s) (i : RegionId) (r : Region)
    (owner : regionOwner r = regionOwner (s.region i)) : TablesLimited (s.setRegion i r) := by
  refine fun k => (h k).congr (client_setRegion i r s k) fun j => ?_
  rw [region_setRegion]
  split_ifs with e
  · rw [e, owner]
  · rfl

theorem TablesLimited.discardStaging {s : State} (h : TablesLimited s) (k : ClientId) : TablesLimited (discardStaging k s) := by
  intro j
  have client := client_discardStaging k j s
  have kept (i : RegionId) (stays : i ∉ s.idsWhere (isReservedOf k)) :
      regionOwner ((Machine.discardStaging k s).region i) = regionOwner (s.region i) := by
    rw [region_discardStaging, if_neg (by simpa using stays)]
    simp
  split_ifs at client with own
  · refine (h j).of_emptied ?_ ?_ ?_ <;> simp only [client]
    · exact terms_freeRecords _ s j
    · exact owned_freeRecords_le _ s j
  · refine (h j).of_freed client (fun i freed => ?_) kept
    obtain ⟨q, e, o⟩ := isReservedOf_iff.mp (by simpa using freed)
    rw [e, regionOwner_reserved, o]
    exact fun e => own (Option.some.inj e).symm

theorem TablesLimited.publishSteps {s : State} (h : TablesLimited s) (k : ClientId) : TablesLimited (publishSteps k s).1 := by
  intro j
  have client := client_publishSteps k j s
  have retired (j : ClientId) : (retireStep k s).client j = (freeRecords (s.idsWhere (isRetiringOf k)) s).client j := rfl
  have kept (i : RegionId) (stays : i ∉ s.idsWhere (isRetiringOf k)) :
      regionOwner ((Machine.publishSteps k s).1.region i) = regionOwner (s.region i) := by
    rw [region_publishSteps, regionOwner_publishedRecord, if_neg (by simpa using stays)]
  rw [retired] at client
  split_ifs at client with own
  · refine (h j).of_emptied ?_ ?_ ?_ <;> simp only [client]
    · exact terms_freeRecords _ s j
    · exact owned_freeRecords_le _ s j
  · refine (h j).of_freed client (fun i freed => ?_) kept
    obtain ⟨q, st, e, o, -⟩ := isRetiringOf_iff.mp (by simpa using freed)
    rw [e, regionOwner_live, o]
    exact fun e => own (Option.some.inj e).symm

theorem TablesLimited.applyPublish {s : State} (h : TablesLimited s) (k : ClientId) : TablesLimited (applyPublish k s).1 := by
  have refused : TablesLimited (leavePublishing k s) :=
    h.updClient k _ rfl rfl rfl
  unfold Machine.applyPublish
  split
  · exact refused
  · exact h.publishSteps k

theorem TablesLimited.applyClose {s : State} (h : TablesLimited s) (k : ClientId) : TablesLimited (applyClose k s) := by
  intro j
  have client := client_applyClose k j s
  split_ifs at client with own
  · exact .of_nothing (by rw [client]; rfl) (by rw [client]; rfl)
  · refine (h j).of_freed client (fun i freed => ?_) fun i stays => ?_
    · obtain ⟨q, e, o⟩ := isLiveOf_iff.mp (by simpa using freed)
      rw [e, regionOwner_live, o]
      exact fun e => own (Option.some.inj e).symm
    · rw [region_applyClose, if_neg (by simpa using stays)]

theorem TablesLimited.applyClear {s : State} (h : TablesLimited s) : TablesLimited (applyClear s) := by
  intro j
  have client := client_applyClear s j
  unfold clearedClient at client
  split_ifs at client
  · exact (h j).of_emptied (by rw [client]) (by rw [client]; exact Nat.zero_le _) (by rw [client])
  · exact .of_nothing (by rw [client]; rfl) (by rw [client]; rfl)

theorem TablesLimited.removePublish {s : State} (h : TablesLimited s) (k : ClientId) : TablesLimited (removePublish k s) :=
  (h.congr (t := { s with parked := s.parked.filter fun e => !isPublishOf k e }) rfl rfl).updClient k _ rfl rfl rfl

theorem TablesLimited.closeBegun {s : State} (h : TablesLimited s) (k : ClientId) : TablesLimited (closeBegun k s) := by
  have asked : TablesLimited (askLease [.stop k] s) := h.congr (by simp) (by simp)
  exact asked.updClient k _ rfl rfl rfl

theorem TablesLimited.reserveRecord {s : State} {m : List Word} {k : ClientId} {i : RegionId} (h : TablesLimited s)
    (checks : createChecks m k s = .ok i) : TablesLimited (reserveRecord i k (createPart m) s) := by
  obtain ⟨-, quota, lowest, -⟩ := createChecks_ok checks
  have free := lowestFree_eq_some lowest
  intro j
  have client := client_reserveRecord i k j (createPart m) s
  have owners (a : RegionId) (own : regionOwner (s.region a) = some j) :
      regionOwner ((Machine.reserveRecord i k (createPart m) s).region a) = some j := by
    have ne : a ≠ i := by rintro rfl; rw [free] at own; cases own
    rw [Machine.reserveRecord, region_updClient, region_setRegion_other ne]
    exact own
  split_ifs at client with own
  · subst own
    refine ⟨fun tm e => ?_, ?_, fun a ha => ?_⟩ <;> rw [client] at *
    · obtain ⟨low, high, period, le⟩ := (h j).terms tm e
      have full : clientQuota s j = tm.quota := by unfold clientQuota; rw [e]
      rw [full] at quota
      exact ⟨low, high, period, by simp only; omega⟩
    · exact (h j).moves
    · exact owners a ((h j).subjects a ha)
  · refine ⟨?_, ?_, fun a ha => ?_⟩ <;> rw [client] at *
    · exact (h j).terms
    · exact (h j).moves
    · exact owners a ((h j).subjects a ha)

theorem TablesLimited.retireReserved {s : State} {i : RegionId} {k : ClientId} (h : TablesLimited s)
    (own : regionOwner (s.region i) = some k) : TablesLimited (retireReserved i k s) := by
  intro j
  have client := client_retireReserved i k j s
  have kept (a : RegionId) (stays : a ∉ [i]) : regionOwner ((Machine.retireReserved i k s).region a) = regionOwner (s.region a) := by
    rw [Machine.retireReserved, region_updClient, region_freeRecords, if_neg stays]
    simp
  split_ifs at client with e
  · have subjects : moveSubjects ((Machine.retireReserved i k s).client j) =
        (((freeRecords [i] s).client j).moves.filter fun v => decide (v.subject ≠ i)).map (·.subject) := by
      rw [client, moveSubjects]
    refine (h j).of_le (fun tm => ?_) ?_ ?_ fun a ha owner => ?_
    · simp only [client, terms_freeRecords]
      exact id
    · simp only [client]
      exact owned_freeRecords_le [i] s j
    · rw [subjects, ← moveSubjects_freeRecords [i] s j]
      exact List.filter_sublist.map _
    · rw [subjects] at ha
      obtain ⟨v, hv, rfl⟩ := List.mem_map.mp ha
      have ne : v.subject ≠ i := by simpa using (List.mem_filter.mp hv).2
      rw [kept _ (by simpa using ne)]
      exact owner
  · refine (h j).of_freed client (fun a freed => ?_) kept
    rw [List.mem_singleton.mp freed, own]
    exact fun eq => e (Option.some.inj eq).symm

/-- What a RESTACK whose checks pass stages is a move of the client's own region, with room for it (R45). -/
theorem restackChecks_ok {m : List Word} {k : ClientId} {s : State} {v : Move} (h : restackChecks m k s = .ok v) :
    regionOwner (s.region v.subject) = some k ∧ (s.client k).moves.length < 8 := by
  unfold restackChecks at h
  split at h
  · next p i _ _ =>
    split at h
    · cases h
    next owner =>
    split at h
    · cases h
    split at h
    · cases h
    split at h
    · cases h
    next full =>
    cases h
    exact ⟨by simpa using owner, by simpa using full⟩
  · cases h

theorem TablesLimited.restack {s : State} {m : List Word} {k : ClientId} {v : Move} (h : TablesLimited s)
    (checks : restackChecks m k s = .ok v) : TablesLimited (s.updClient k fun c => { c with moves := c.moves ++ [v] }) := by
  obtain ⟨owner, room⟩ := restackChecks_ok checks
  intro j
  have client := client_updClient k j (fun c => { c with moves := c.moves ++ [v] }) s
  split_ifs at client with own
  · subst own
    refine ⟨?_, ?_, fun i hi => ?_⟩ <;> rw [client] at *
    · exact (h j).terms
    · simp only [moveSubjects, List.length_map, List.length_append, List.length_singleton]
      omega
    · rw [region_updClient]
      simp only [moveSubjects, List.map_append, List.mem_append, List.map_singleton, List.mem_singleton] at hi
      obtain old | rfl := hi
      · exact (h j).subjects i old
      · exact owner
  · exact (h j).congr client fun i => by rw [region_updClient]

/-- A CLOSED client opens with terms in range (R29). -/
theorem TablesLimited.opening {s : State} {m : List Word} {k : ClientId} {tm : Terms} (h : TablesLimited s)
    (fields : openFields m = some (k, tm)) : TablesLimited (s.updClient k fun _ =>
      { state := .active, terms := some tm, owned := 0, moves := [], parkedEntry := false }) := by
  obtain ⟨-, low, high, period⟩ := openFields_eq_some fields
  intro j
  have client := client_updClient k j (fun _ =>
    { state := .active, terms := some tm, owned := 0, moves := [], parkedEntry := false }) s
  split_ifs at client
  · refine ⟨fun t e => ?_, by rw [client]; simp [moveSubjects], by rw [client]; simp [moveSubjects]⟩
    rw [client] at e ⊢
    cases e
    exact ⟨low, high, period, Nat.zero_le _⟩
  · exact (h j).congr client fun i => by rw [region_updClient]

theorem TablesLimited.of_leaseFrame {s t : State} (h : TablesLimited s) (frame : leaseFrame s t) : TablesLimited t :=
  h.congr (by rw [frame]) (by rw [frame])

theorem TablesLimited.closePark {s : State} (h : TablesLimited s) (k : ClientId) (tag : Tag) :
    TablesLimited (closeTail k tag true s) := by
  have flagged := (h.closeBegun k).updClient k (fun c => { c with parkedEntry := true }) rfl rfl rfl
  rw [closeTail_parks]
  exact flagged.congr rfl rfl

theorem TablesLimited.lapsedState {s : State} (h : TablesLimited s) (k : ClientId) : TablesLimited (lapsedState k s) := by
  have removed : TablesLimited (if (s.client k).parkedEntry then Machine.removePublish k s else s) := by
    split_ifs
    · exact h.removePublish k
    · exact h
  exact (removed.discardStaging k).updClient k _ rfl rfl rfl

/-- Every operation of the engine keeps the limits on the client records. -/
theorem Piece.tablesLimited {s t : State} (piece : Piece s t) (h : TablesLimited s) : TablesLimited t := by
  cases piece with
  | quiet q => exact h.congr (by rw [q.frame]) (by rw [q.frame])
  | settle => exact h.of_leaseFrame (settleLease_frame s)
  | decrement => exact h.of_leaseFrame (countDown_frame s)
  | claim k => exact h.of_leaseFrame (handLease_frame _ s)
  | panel p => exact h.congr rfl rfl
  | ignore notOpen => exact h.of_leaseFrame (noticeTaken_frame _ s)
  | reserve asked checks => exact h.reserveRecord checks
  | edit asked checks => exact h.setRegion _ _ (by simp)
  | mark asked live own => exact h.setRegion _ _ (by simp)
  | release asked reserved own => exact h.retireReserved (by rw [reserved, regionOwner_reserved, own])
  | restack asked checks => exact h.restack checks
  | discard k notHeld => exact h.discardStaging k
  | @park _ hd asked copying =>
    have updated := h.updClient hd.client (fun c => { c with state := .publishing, parkedEntry := true }) rfl rfl rfl
    exact updated.congr (by cases s; rfl) (by cases s; rfl)
  | publish asked => exact h.applyPublish _
  | @pop _ e rest notHeld parked =>
    have popped : TablesLimited { s with parked := rest } := h.congr rfl rfl
    cases e with
    | publish k tag => exact popped.applyPublish k
    | close k tag => exact popped.applyClose k
    | clearAll tag => exact popped.applyClear
  | clear asked copying => exact h.applyClear
  | parkClear asked copying => exact h.congr rfl rfl
  | resume asked lapsed => exact (h.updClient _ _ rfl rfl rfl).of_leaseFrame (askLease_frame _ _)
  | opening asked fields closed => exact (h.opening fields).of_leaseFrame (askLease_frame _ _)
  | cancel tag closing parked => exact (h.removePublish _).congr rfl rfl
  | closePark tag may => exact h.closePark _ tag
  | @closeNow _ k may => exact ((h.closeBegun k).applyClose k).congr rfl rfl
  | @lapse _ k notHeld pending opened =>
    exact TablesLimited.lapsedState (h.of_leaseFrame (noticeTaken_frame k s)) k

/-! ### The counters and the Lapse Pending Set -/

/-- The limits on the counters and the Lapse Pending Set (R92, R97). -/
structure CountersLimited (s : State) : Prop where
  counts : ∀ k, (s.counter k).count ≤ 1023
  stopped : ∀ k, (s.counter k).running = false → (s.counter k).count = 0
  ascending : s.lapsePending.Pairwise (· < ·)

/-- The loads that wait are in range (R21). -/
def LoadsLimited (ms : List LeaseMsg) : Prop := ∀ k p, LeaseMsg.load k p ∈ ms → p ≤ 1023

theorem clientLimitsHold_iff (s : State) :
    ClientLimitsHold s ↔ TablesLimited s ∧ CountersLimited s ∧ LoadsLimited s.leaseInbox := by
  constructor
  · rintro ⟨terms, moves, subjects, counts, stopped, loads, ascending⟩
    refine ⟨fun k => ⟨terms k, by simpa [moveSubjects] using moves k, fun i hi => ?_⟩, ⟨counts, stopped, ascending⟩, loads⟩
    obtain ⟨v, hv, rfl⟩ := List.mem_map.mp hi
    exact subjects k v hv
  · rintro ⟨tables, ⟨counts, stopped, ascending⟩, loads⟩
    exact ⟨fun k => (tables k).terms, fun k => by simpa [moveSubjects] using (tables k).moves,
      fun k v hv => (tables k).subjects v.subject (List.mem_map.mpr ⟨v, hv, rfl⟩), counts, stopped, loads, ascending⟩

theorem CountersLimited.congr {s t : State} (counters : t.counters = s.counters) (pending : t.lapsePending = s.lapsePending)
    (h : CountersLimited s) : CountersLimited t :=
  ⟨fun k => by rw [counter_congr counters]; exact h.counts k, fun k => by rw [counter_congr counters]; exact h.stopped k,
    by rw [pending]; exact h.ascending⟩

/-- The counters of a state with the set given: each as before, or in range and at 0 when STOPPED. -/
theorem CountersLimited.of_counters {s t : State} (h : CountersLimited s) (ascending : t.lapsePending.Pairwise (· < ·))
    (counters : ∀ k, t.counter k = s.counter k
      ∨ ((t.counter k).count ≤ 1023 ∧ ((t.counter k).running = false → (t.counter k).count = 0))) : CountersLimited t := by
  refine ⟨fun k => ?_, fun k stopped => ?_, ascending⟩ <;> obtain same | ⟨low, zero⟩ := counters k
  · rw [same]; exact h.counts k
  · exact low
  · rw [same] at stopped ⊢
    exact h.stopped k stopped
  · exact zero stopped

theorem CountersLimited.take {s : State} {m : LeaseMsg} (h : CountersLimited s) (periods : ∀ k, leasePeriod s k ≤ 1023)
    (loads : ∀ k p, m = .load k p → p ≤ 1023) : CountersLimited (takeLeaseMsg s m) := by
  cases m with
  | claim k =>
    refine h.of_counters (by rw [takeLeaseMsg, takeClaim_lapsePending]; exact h.ascending) fun j => ?_
    rw [takeLeaseMsg, counter_takeClaim]
    split_ifs with own
    · exact .inr ⟨periods k, nofun⟩
    · exact .inl rfl
  | load k p =>
    refine h.of_counters (by rw [takeLeaseMsg, takeLoad_lapsePending]; exact h.ascending) fun j => ?_
    rw [takeLeaseMsg, counter_takeLoad]
    split_ifs with own
    · exact .inr ⟨loads k p rfl, fun e => by simpa using e⟩
    · exact .inl rfl
  | stop k =>
    refine h.of_counters (by rw [takeLeaseMsg, takeStop_lapsePending]; exact h.ascending.filter _) fun j => ?_
    rw [takeLeaseMsg, counter_takeStop]
    split_ifs with own
    · exact .inr ⟨Nat.zero_le _, fun _ => rfl⟩
    · exact .inl rfl

/-- The counters in range, with the periods that reloads use in range. -/
def CountersAndPeriods (s : State) : Prop := CountersLimited s ∧ ∀ k, leasePeriod s k ≤ 1023

theorem CountersAndPeriods.congr {s t : State} (same : sameLeases s t) (h : CountersAndPeriods s) : CountersAndPeriods t :=
  ⟨h.1.congr same.1 same.2.1, fun k => by rw [leasePeriod_congr (s := s) (by rw [client_congr same.2.2])]; exact h.2 k⟩

theorem CountersAndPeriods.take {s : State} {m : LeaseMsg} (h : CountersAndPeriods s) (loads : ∀ k p, m = .load k p → p ≤ 1023) :
    CountersAndPeriods (takeLeaseMsg s m) :=
  ⟨h.1.take h.2 loads, fun k => by
    rw [leasePeriod_congr (s := s) (by rw [leaseFrame_client (takeLeaseMsg_frame s m)])]; exact h.2 k⟩

theorem CountersLimited.settle {s : State} (h : CountersLimited s) (periods : ∀ k, leasePeriod s k ≤ 1023)
    (loads : LoadsLimited s.leaseInbox) : CountersLimited (settleLease s) :=
  (settleLease_keeps (P := CountersAndPeriods) (fun _ _ same h => h.congr same)
    (fun _ _ hm h => h.take fun k p e => loads k p (e ▸ hm)) ⟨h, periods⟩).1

theorem CountersLimited.ask {s : State} {ms : List LeaseMsg} (h : CountersLimited s) (periods : ∀ k, leasePeriod s k ≤ 1023)
    (loads : LoadsLimited s.leaseInbox) (asked : LoadsLimited ms) : CountersLimited (askLease ms s) :=
  (askLease_keeps (P := CountersAndPeriods) (fun _ _ same h => h.congr same)
    (fun _ _ hm h => h.take fun k p e => by subst e; exact hm.elim (loads k p) (asked k p)) ⟨h, periods⟩).1

theorem pairwise_clientsWhere (p : ClientId → Bool) : (clientsWhere p).Pairwise (· < ·) :=
  (List.pairwise_lt_finRange 16).filter _

theorem ascending_expireCounters (s : State) : (expireCounters s).lapsePending.Pairwise (· < ·) := by
  have set : (expireCounters s).lapsePending = clientsWhere fun k => decide (k ∈ s.lapsePending) || counterSpent s k := rfl
  rw [set]
  exact pairwise_clientsWhere _

theorem CountersLimited.expire {s : State} (h : CountersLimited s) : CountersLimited (expireCounters s) := by
  refine h.of_counters (ascending_expireCounters s) fun k => ?_
  rw [counter_expireCounters]
  split_ifs
  · exact .inr ⟨Nat.zero_le _, fun _ => rfl⟩
  · exact .inl rfl

theorem CountersLimited.countDown {s : State} (h : CountersLimited s) : CountersLimited (countDown s) := by
  refine h.of_counters (ascending_expireCounters _) fun k => ?_
  have low := h.counts k
  rw [counter_countDown]
  unfold decremented
  split_ifs with running last
  · exact .inr ⟨Nat.zero_le _, fun _ => rfl⟩
  · refine .inr ⟨?_, fun stopped => ?_⟩
    · simp only; omega
    · rw [show (s.counter k).running = false from stopped] at running
      cases running
  · exact .inl rfl

theorem LoadsLimited.of_nil {ms : List LeaseMsg} (h : ms = []) : LoadsLimited ms := by
  subst h
  nofun

/-- Every operation of the engine keeps the counters and what waits for the Lease Monitor in range. -/
theorem LeaseWork.limited {s t : State} (work : LeaseWork s t) (h : CountersLimited s) (periods : ∀ k, leasePeriod s k ≤ 1023)
    (loads : LoadsLimited s.leaseInbox) : CountersLimited t ∧ LoadsLimited t.leaseInbox := by
  have via {u : State} (counters : CountersLimited u) (waiting : LoadsLimited u.leaseInbox) (kept : leasesKept u t) :
      CountersLimited t ∧ LoadsLimited t.leaseInbox :=
    ⟨counters.congr kept.2.1 kept.2.2, by rw [kept.1]; exact waiting⟩
  cases work with
  | kept kept => exact via h loads kept
  | settle kept => exact via (h.settle periods loads) (.of_nil rfl) kept
  | decrement kept => exact via h.countDown (by rw [countDown_leaseInbox]; exact loads) kept
  | claim k kept =>
    refine via (u := handLease (.claim k) s) (.congr (s := s) rfl rfl h) (fun j p hm => loads j p ?_) kept
    simpa [handLease] using hm
  | load k p u before kept state own others =>
    have low : p ≤ 1023 := by
      obtain ⟨-, rfl⟩ | ⟨-, low⟩ := state
      · exact periods k
      · exact low
    have periods' (j : ClientId) : leasePeriod u j ≤ 1023 := by
      by_cases e : j = k
      · rw [e, own]; exact low
      · rw [others j e]; exact periods j
    refine via ((h.congr before.2.1 before.2.2).ask periods' (by rw [before.1]; exact loads) fun j q hm => ?_)
      (.of_nil (askLease_load k p u).inbox) kept
    cases List.mem_singleton.mp hm
    exact low
  | stop k kept =>
    exact via (h.ask periods loads fun j q hm => by simp at hm) (.of_nil (askLease_stop k s).inbox) kept
  | clear kept =>
    obtain ⟨inbox, counters, pending⟩ := applyClear_leases s
    refine via ((h.settle periods loads).of_counters (by rw [pending]; exact .nil) fun j => ?_) (.of_nil inbox) kept
    rw [counters]
    split_ifs
    · exact .inl rfl
    · exact .inr ⟨Nat.zero_le _, fun _ => rfl⟩
  | notice k kept => exact via (u := noticeTaken k s) ⟨h.counts, h.stopped, h.ascending.filter _⟩ loads kept

theorem TablesLimited.periods {s : State} (h : TablesLimited s) (k : ClientId) : leasePeriod s k ≤ 1023 := by
  unfold leasePeriod
  split
  · next t e =>
    obtain ⟨-, -, period, -⟩ := (h k).terms t e
    exact period
  · exact Nat.zero_le _

theorem Piece.clientLimitsHold {s t : State} (piece : Piece s t) (h : ClientLimitsHold s) : ClientLimitsHold t := by
  obtain ⟨tables, counters, loads⟩ := (clientLimitsHold_iff s).mp h
  obtain ⟨counters', loads'⟩ := piece.leases.limited counters tables.periods loads
  exact (clientLimitsHold_iff t).mpr ⟨piece.tablesLimited tables, counters', loads'⟩

theorem clientLimitsHold_monitor {c : Instr} {s t : State} (monitor : c.agent = .leaseMonitor) (run : exec c s = .next t)
    (h : ClientLimitsHold s) : ClientLimitsHold t := by
  obtain ⟨tables, counters, loads⟩ := (clientLimitsHold_iff s).mp h
  refine (clientLimitsHold_iff t).mpr ⟨tables.of_leaseFrame (exec_leaseFrame monitor run), ?_⟩
  obtain rfl | ⟨m, rest, inbox, rfl⟩ | rfl | rfl := exec_monitorEvent monitor run
  · exact ⟨counters, loads⟩
  · have rest' : LoadsLimited rest := fun k p hm => loads k p (by rw [inbox]; exact List.mem_cons_of_mem m hm)
    have head (k : ClientId) (p : Nat) (e : m = .load k p) : p ≤ 1023 := loads k p (by rw [inbox, e]; exact List.mem_cons_self)
    have counters' : CountersLimited { s with leaseInbox := rest } := .congr (s := s) rfl rfl counters
    exact ⟨counters'.take (fun k => tables.periods k) head, by rw [takeLeaseMsg_leaseInbox]; exact rest'⟩
  · exact ⟨counters.countDown, by rw [countDown_leaseInbox]; exact loads⟩
  · exact ⟨counters.expire, loads⟩

theorem ClientLimitsHold.congr {s t : State} (h : ClientLimitsHold s) (clients : t.clients = s.clients)
    (regions : t.regions = s.regions) (leases : leasesKept s t) : ClientLimitsHold t := by
  obtain ⟨tables, counters, loads⟩ := (clientLimitsHold_iff s).mp h
  exact (clientLimitsHold_iff t).mpr ⟨tables.congr clients regions, counters.congr leases.2.1 leases.2.2,
    by rw [leases.1]; exact loads⟩

theorem client_reset (k : ClientId) : State.reset.client k = if k = 0 then supervisorClient else closedClient := by
  simp [State.client, State.reset, Config.supervisor]

theorem counter_reset (k : ClientId) : State.reset.counter k = { count := 0, running := false } := by
  simp [State.counter, State.reset]

theorem clientLimitsHold_reset : ClientLimitsHold State.reset := by
  refine (clientLimitsHold_iff _).mpr ⟨fun k => ?_, ⟨fun k => ?_, fun k _ => ?_, .nil⟩, nofun⟩
  · have client := client_reset k
    split_ifs at client
    · refine ⟨fun t e => ?_, ?_, ?_⟩ <;> rw [client] at *
      · cases e
        exact ⟨by decide, by decide, by decide, Nat.zero_le _⟩
      · simp [moveSubjects, supervisorClient]
      · simp [moveSubjects, supervisorClient]
    · exact .of_nothing (by rw [client]; rfl) (by rw [client]; rfl)
  · rw [counter_reset]; exact Nat.zero_le _
  · rw [counter_reset]

theorem clientLimitsHold_step {s t : State} (h : ClientLimitsHold s) (run : step s = .next t) : ClientLimitsHold t := by
  refine step_keeps_of_blocks (P := ClientLimitsHold) (fun _ _ op h => op.clientLimitsHold h)
    (fun s l h => h.congr rfl rfl ⟨rfl, rfl, rfl⟩) (fun c s t engine reset run h => ?_)
    (fun level s => clientLimitsHold_reset.congr rfl rfl ⟨rfl, rfl, rfl⟩) run h
  by_cases monitor : c.agent = .leaseMonitor
  · exact clientLimitsHold_monitor monitor run h
  · have inert := exec_inert engine monitor reset run
    exact h.congr inert.clients inert.regions ⟨inert.leaseInbox, inert.counters, inert.lapsePending⟩

/-! ### The counters beside the client records -/

/-- R92's table for one client: its counter, its place in the Lapse Pending Set and its record. -/
structure LeaseParty (s : State) (k : ClientId) : Prop where
  running : (s.counter k).running = true →
    isOpen (s.client k) ∧ 1 ≤ (s.counter k).count ∧ (s.counter k).count ≤ leasePeriod s k
  stopped : (s.counter k).running = false → (s.counter k).count = 0
  lapsing : isOpen (s.client k) → leasePeriod s k ≠ 0 → (s.counter k).running = true ∨ k ∈ s.lapsePending
  pending : k ∈ s.lapsePending → (s.counter k).running = false ∧ leasePeriod s k ≠ 0 ∧ isOpen (s.client k)

/-- Only reload claims wait (log 5). -/
def ClaimsOnly (ms : List LeaseMsg) : Prop := ∀ m ∈ ms, ∃ k, m = .claim k

theorem leasesHold_iff (s : State) : LeasesHold s ↔ (∀ k, LeaseParty s k) ∧ ClaimsOnly s.leaseInbox :=
  ⟨fun ⟨running, stopped, lapsing, pending, claims⟩ =>
    ⟨fun k => ⟨running k, stopped k, lapsing k, pending k⟩, claims⟩,
  fun ⟨parties, claims⟩ => ⟨fun k => (parties k).running, fun k => (parties k).stopped, fun k => (parties k).lapsing,
    fun k => (parties k).pending, claims⟩⟩

theorem LeaseParty.congr {s t : State} {k : ClientId} (h : LeaseParty s k) (counter : t.counter k = s.counter k)
    (pending : k ∈ t.lapsePending ↔ k ∈ s.lapsePending) (opened : isOpen (t.client k) ↔ isOpen (s.client k))
    (period : leasePeriod t k = leasePeriod s k) : LeaseParty t k := by
  refine ⟨?_, ?_, ?_, ?_⟩ <;> rw [counter]
  · rw [opened, period]; exact h.running
  · exact h.stopped
  · rw [opened, period, pending]; exact h.lapsing
  · rw [opened, period, pending]; exact h.pending

/-- A client that is not open, with its counter STOPPED at 0 and no notice. -/
theorem LeaseParty.of_closed {s : State} {k : ClientId} (counter : s.counter k = { count := 0, running := false })
    (pending : k ∉ s.lapsePending) (notOpen : ¬ isOpen (s.client k)) : LeaseParty s k :=
  ⟨fun e => (by rw [counter] at e; cases e), fun _ => (by rw [counter]), fun e => absurd e notOpen, fun e => absurd e pending⟩

/-- A client that is not open has a STOPPED counter and no notice. -/
theorem LeaseParty.not_open {s : State} {k : ClientId} (h : LeaseParty s k) (notOpen : ¬ isOpen (s.client k)) :
    s.counter k = { count := 0, running := false } ∧ k ∉ s.lapsePending := by
  have stopped : (s.counter k).running = false := by
    cases e : (s.counter k).running with
    | false => rfl
    | true => exact absurd (h.running e).1 notOpen
  refine ⟨?_, fun e => notOpen (h.pending e).2.2⟩
  have count := h.stopped stopped
  cases c : s.counter k
  simp_all

theorem LeaseParty.of_tables {s t : State} {k : ClientId} (h : LeaseParty s k) (kept : leasesKept s t)
    (opened : isOpen (t.client k) ↔ isOpen (s.client k)) (period : leasePeriod t k = leasePeriod s k) : LeaseParty t k :=
  h.congr (counter_congr kept.2.1 k) (by rw [kept.2.2]) opened period

/-- A reload by a claim leaves a counter as R92's table has it (R95). -/
theorem LeaseParty.settle {s : State} {k : ClientId} (h : LeaseParty s k) (claims : ClaimsOnly s.leaseInbox) :
    LeaseParty (settleLease s) k := by
  obtain ⟨pending, counters⟩ := settleLease_claims claims
  have period : leasePeriod (settleLease s) k = leasePeriod s k := leasePeriod_congr (by rw [settleLease_client])
  have counter := counters k
  split_ifs at counter with reloads
  · obtain ⟨opened, low, high⟩ := h.running reloads.2
    refine ⟨fun _ => ?_, fun e => ?_, fun _ _ => .inl (by rw [counter]), fun e => ?_⟩
    · rw [counter, period, settleLease_client]
      exact ⟨opened, low.trans high, le_rfl⟩
    · rw [counter] at e; cases e
    · rw [pending] at e
      have := (h.pending e).1
      rw [reloads.2] at this
      cases this
  · exact h.congr counter (by rw [pending]) (by rw [settleLease_client]) period

/-- A decrement leaves a counter as R92's table has it, its client in the Lapse Pending Set if it reached 0 (R94). -/
theorem LeaseParty.countDown {s : State} {k : ClientId} (h : LeaseParty s k) : LeaseParty (countDown s) k := by
  have client := leaseFrame_client (countDown_frame s) k
  have period : leasePeriod (Machine.countDown s) k = leasePeriod s k := leasePeriod_congr (by rw [client])
  have counter := counter_countDown s k
  have pending := mem_lapsePending_countDown s k
  unfold decremented at counter
  by_cases running : (s.counter k).running = true
  · obtain ⟨opened, low, high⟩ := h.running running
    have notPending : k ∉ s.lapsePending := fun e => by
      have := (h.pending e).1
      rw [running] at this; cases this
    rw [if_pos running] at counter
    split_ifs at counter with last
    · have joins : k ∈ (Machine.countDown s).lapsePending := pending.mpr (.inr ⟨running, last⟩)
      refine ⟨fun e => ?_, fun _ => by rw [counter], fun _ _ => .inr joins, fun _ => ⟨by rw [counter], ?_, by rwa [client]⟩⟩
      · rw [counter] at e; cases e
      · rw [period]; omega
    · have stays : k ∉ (Machine.countDown s).lapsePending := fun e => (pending.mp e).elim notPending fun e => last e.2
      refine ⟨fun _ => ?_, fun e => ?_, fun _ _ => .inl (by rw [counter]; exact running), fun e => absurd e stays⟩
      · rw [counter, client, period]
        exact ⟨opened, by simp only; omega, by simp only; omega⟩
      · rw [counter] at e
        rw [running] at e; cases e
  · rw [if_neg running] at counter
    exact h.congr counter (by rw [pending]; simp [running]) (by rw [client]) period

theorem LeaseParty.expire {s : State} {k : ClientId} (h : LeaseParty s k) : LeaseParty (expireCounters s) k := by
  have client := leaseFrame_client (expireCounters_frame s) k
  have notSpent : counterSpent s k = false := by
    unfold counterSpent
    cases running : (s.counter k).running with
    | false => rfl
    | true =>
      have := (h.running running).2.1
      simp only [Bool.true_and, decide_eq_false_iff_not]
      omega
  refine h.congr ?_ ?_ (by rw [client]) (leasePeriod_congr (by rw [client]))
  · rw [counter_expireCounters, notSpent]; rfl
  · rw [mem_lapsePending_expireCounters, notSpent]; simp

/-- A LAPSED client that resumes, or a CLOSED one that opens, has its counter loaded with its period (R93). -/
theorem LeaseParty.load {s : State} {k j : ClientId} (f : Client → Client) {p : Nat} (parties : ∀ j, LeaseParty s j)
    (claims : ClaimsOnly s.leaseInbox) (notOpen : ¬ isOpen (s.client k)) (opened : isOpen (f (s.client k)))
    (period : leasePeriod (s.updClient k f) k = p) : LeaseParty (askLease [.load k p] (s.updClient k f)) j := by
  have kept : leasesKept s (s.updClient k f) := leasesKept_of_tables (updClient_tables k f s)
  have claims' : ClaimsOnly (s.updClient k f).leaseInbox := by rw [kept.1]; exact claims
  have loaded := askLease_load k p (s.updClient k f)
  have set : (settleLease (s.updClient k f)).lapsePending = s.lapsePending := (settleLease_claims claims').1.trans kept.2.2
  have client : (askLease [.load k p] (s.updClient k f)).client j = (s.updClient k f).client j := askLease_client _ _ j
  have period' : leasePeriod (askLease [.load k p] (s.updClient k f)) j = leasePeriod (s.updClient k f) j :=
    leasePeriod_congr (by rw [client])
  have counter := loaded.counters j
  have pending : j ∈ (askLease [.load k p] (s.updClient k f)).lapsePending ↔ j ∈ s.lapsePending := by rw [loaded.pending, set]
  split_ifs at counter with own
  · subst own
    have absent := ((parties j).not_open notOpen).2
    rw [client_updClient_same] at client
    refine ⟨fun e => ?_, fun e => ?_, fun _ e => ?_, fun e => absurd (pending.mp e) absent⟩
    · rw [counter, client, period', period] at *
      exact ⟨opened, Nat.one_le_iff_ne_zero.mpr (by simpa using e), le_rfl⟩
    · rw [counter] at *
      simpa using e
    · rw [period', period] at e
      exact .inl (by rw [counter]; simpa using e)
  · rw [client_updClient_other own] at client
    have before : LeaseParty (s.updClient k f) j :=
      (parties j).of_tables kept (by rw [client_updClient_other own]) (leasePeriod_congr (by rw [client_updClient_other own]))
    have settled := before.settle claims'
    refine settled.congr counter (by rw [pending, set]) (by rw [client, settleLease_client, client_updClient_other own]) ?_
    rw [period']
    exact (leasePeriod_congr (by rw [settleLease_client])).symm

/-- A close stops its target's counter and discards its notice (R31 step 3, R96). -/
theorem LeaseParty.closeBegun {s : State} {k j : ClientId} (parties : ∀ j, LeaseParty s j) (claims : ClaimsOnly s.leaseInbox) :
    LeaseParty (closeBegun k s) j := by
  have kept : leasesKept (askLease [.stop k] s) (Machine.closeBegun k s) := leasesKept_of_tables (updClient_tables _ _ _)
  have stopped := askLease_stop k s
  have client := client_closeBegun k j s
  have counter := (counter_congr kept.2.1 j).trans (stopped.counters j)
  have pending : (Machine.closeBegun k s).lapsePending = _ := kept.2.2.trans stopped.pending
  split_ifs at client counter with own
  · subst own
    refine .of_closed counter (by rw [pending]; simp) ?_
    rw [client]
    simp [isOpen]
  · have settled := (parties j).settle claims
    refine settled.congr counter (by rw [pending]; simp [own]) (by rw [client, settleLease_client]) (leasePeriod_congr ?_)
    rw [client, settleLease_client]

/-- A clear stops the counters of all clients but 0, whose lease period is 0 (R90). -/
theorem LeaseParty.applyClear {s : State} {j : ClientId} (supervisor : SupervisorHolds s) : LeaseParty (applyClear s) j := by
  obtain ⟨lease, opened, noLoad⟩ := (supervisorHolds_iff s).mp supervisor
  obtain ⟨inbox, counters, pending⟩ := applyClear_leases s
  have counter := counters j
  have client := client_applyClear s j
  have absent : j ∉ (Machine.applyClear s).lapsePending := by rw [pending]; simp
  unfold clearedClient at client
  by_cases own : j = 0
  · subst own
    rw [if_pos rfl, (lease.settle noLoad).counter] at counter
    rw [if_pos rfl] at client
    have period : leasePeriod (Machine.applyClear s) 0 = 0 := by
      unfold leasePeriod; rw [client, opened.terms]
    exact ⟨fun e => (by rw [counter] at e; cases e), fun _ => (by rw [counter]), fun _ e => absurd period e,
      fun e => absurd e absent⟩
  · rw [if_neg own] at counter
    rw [if_neg (by simpa [Config.supervisor] using own)] at client
    exact .of_closed counter absent (by rw [client]; simp [isOpen, closedClient])

/-- What a change of the tables does to the state and terms of client `j`: it stays open or not, with the same lease period. -/
def leaseTermsKept (s t : State) (j : ClientId) : Prop :=
  (isOpen (t.client j) ↔ isOpen (s.client j)) ∧ (t.client j).terms = (s.client j).terms

theorem leaseTermsKept_of_client {s t : State} {j : ClientId} (state : (t.client j).state = (s.client j).state)
    (terms : (t.client j).terms = (s.client j).terms) : leaseTermsKept s t j :=
  ⟨by rw [isOpen, isOpen, state], terms⟩

theorem leaseTermsKept_trans {s t u : State} {j : ClientId} (h : leaseTermsKept s t j) (g : leaseTermsKept t u j) :
    leaseTermsKept s u j := ⟨g.1.trans h.1, g.2.trans h.2⟩

theorem leaseTermsKept_updClient {s : State} (k j : ClientId) (f : Client → Client)
    (own : j = k → (isOpen (f (s.client j)) ↔ isOpen (s.client j)) ∧ (f (s.client j)).terms = (s.client j).terms) :
    leaseTermsKept s (s.updClient k f) j := by
  unfold leaseTermsKept
  rw [client_updClient]
  split_ifs with e
  · exact own e
  · exact ⟨.rfl, rfl⟩

theorem leaseTermsKept_discardStaging (k : ClientId) (s : State) (j : ClientId) : leaseTermsKept s (discardStaging k s) j := by
  have client := client_discardStaging k j s
  rw [client_freeRecords] at client
  split_ifs at client <;> exact leaseTermsKept_of_client (by rw [client]) (by rw [client])

theorem leaseTermsKept_applyPublish {k : ClientId} {s : State} (opened : isOpen (s.client k)) (j : ClientId) :
    leaseTermsKept s (applyPublish k s).1 j := by
  have refused : leaseTermsKept s (leavePublishing k s) j :=
    leaseTermsKept_updClient k j _ fun e => ⟨⟨fun _ => e ▸ opened, fun _ => .inl rfl⟩, rfl⟩
  unfold applyPublish
  split
  · exact refused
  · have retired : (retireStep k s).client j = _ := client_freeRecords (s.idsWhere (isRetiringOf k)) s j
    have client := client_publishSteps k j s
    rw [retired] at client
    split_ifs at client with own
    · exact ⟨by rw [client]; exact ⟨fun _ => own ▸ opened, fun _ => .inl rfl⟩, by rw [client]⟩
    · exact leaseTermsKept_of_client (by rw [client]) (by rw [client])

/-- A client that is CLOSED by the change was not open, and is not. -/
theorem LeaseParty.applyClose {s : State} {k j : ClientId} (parties : ∀ j, LeaseParty s j) (notOpen : ¬ isOpen (s.client k)) :
    LeaseParty (applyClose k s) j := by
  have kept := leasesKept_of_tables (applyClose_tables k s)
  have client := client_applyClose k j s
  split_ifs at client with own
  · subst own
    obtain ⟨counter, absent⟩ := (parties j).not_open notOpen
    exact .of_closed ((counter_congr kept.2.1 j).trans counter) (by rw [kept.2.2]; exact absent)
      (by rw [client]; simp [isOpen, closedClient])
  · rw [client_freeRecords] at client
    exact (parties j).of_tables kept (by rw [client]; rfl) (leasePeriod_congr (by rw [client]))

/-- The notice of a client is taken, and the client is LAPSED (R98). -/
theorem LeaseParty.lapse {s : State} {k j : ClientId} (parties : ∀ j, LeaseParty s j) (pending : k ∈ s.lapsePending) :
    LeaseParty (lapsedState k (noticeTaken k s)) j := by
  have kept := lapsedState_leasesKept k (noticeTaken k s)
  have counter : (lapsedState k (noticeTaken k s)).counter j = s.counter j := counter_congr kept.2.1 j
  have set : (lapsedState k (noticeTaken k s)).lapsePending = s.lapsePending.filter fun i => decide (i ≠ k) := kept.2.2
  have removed : leaseTermsKept s (if ((noticeTaken k s).client k).parkedEntry then removePublish k (noticeTaken k s)
      else noticeTaken k s) j := by
    have noticed : (noticeTaken k s).client j = s.client j := leaseFrame_client (noticeTaken_frame k s) j
    split_ifs
    · have client := client_removePublish k j (noticeTaken k s)
      rw [noticed] at client
      split_ifs at client <;> exact leaseTermsKept_of_client (by rw [client]) (by rw [client])
    · exact leaseTermsKept_of_client (by rw [noticed]) (by rw [noticed])
  have discarded := leaseTermsKept_trans removed (leaseTermsKept_discardStaging k _ j)
  by_cases own : j = k
  · subst own
    obtain ⟨stopped, -, -⟩ := (parties j).pending pending
    have count := (parties j).stopped stopped
    refine .of_closed (counter.trans ?_) (by rw [set]; simp) ?_
    · cases c : s.counter j
      simp_all
    · unfold lapsedState
      rw [client_updClient_same]
      simp [isOpen]
  · have upd := leaseTermsKept_trans discarded (leaseTermsKept_updClient k j (fun c => { c with state := .lapsed })
      fun e => absurd e own)
    exact (parties j).congr counter (by rw [set]; simp [own]) upd.1 (leasePeriod_congr upd.2)

theorem leasesHold_engine {s : State} {e : Engine} {p : List ParkedEntry} (h : LeasesHold s) :
    LeasesHold { s with parked := p, engine := e } :=
  ⟨h.running, h.stopped, h.lapsing, h.pending, h.claims⟩

theorem leasesHold_work {s : State} {e : Engine} {w : Bool} (h : LeasesHold s) :
    LeasesHold { s with committedWork := w, engine := e } :=
  ⟨h.running, h.stopped, h.lapsing, h.pending, h.claims⟩

/-- The leases after a close has begun: the counters in the states of R92's table and the target CLOSING. -/
structure ClosingLeases (k : ClientId) (s : State) : Prop where
  parties : ∀ j, LeaseParty s j
  inbox : s.leaseInbox = []
  closing : (s.client k).state = .closing

theorem closingLeases_closeBegun {s : State} {k : ClientId} (parties : ∀ j, LeaseParty s j) (claims : ClaimsOnly s.leaseInbox) :
    ClosingLeases k (closeBegun k s) where
  parties j := .closeBegun parties claims
  inbox := (leasesKept_of_tables (updClient_tables _ _ _)).1.trans (askLease_stop k s).inbox
  closing := by rw [client_closeBegun, if_pos rfl]

theorem ClosingLeases.flagged {s : State} {k : ClientId} (h : ClosingLeases k s) :
    LeasesHold (s.updClient k fun c => { c with parkedEntry := true }) := by
  have kept := leasesKept_of_tables (updClient_tables k (fun c => { c with parkedEntry := true }) s)
  have terms (j : ClientId) : leaseTermsKept s (s.updClient k fun c => { c with parkedEntry := true }) j :=
    leaseTermsKept_updClient k j _ fun _ => ⟨.rfl, rfl⟩
  refine (leasesHold_iff _).mpr ⟨fun j => (h.parties j).of_tables kept (terms j).1 (leasePeriod_congr (terms j).2), ?_⟩
  rw [kept.1, h.inbox]
  nofun

theorem ClosingLeases.closed {s : State} {k : ClientId} (h : ClosingLeases k s) : LeasesHold (applyClose k s) := by
  have kept := leasesKept_of_tables (applyClose_tables k s)
  have notOpen : ¬ isOpen (s.client k) := by simp [isOpen, h.closing]
  refine (leasesHold_iff _).mpr ⟨fun j => .applyClose h.parties notOpen, ?_⟩
  rw [kept.1, h.inbox]
  nofun

/-- Every operation of the engine keeps the counters in the states of R92's table. -/
theorem Piece.leasesHold {s t : State} (piece : Piece s t) (records : RecordsHold s) (supervisor : SupervisorHolds s)
    (h : LeasesHold s) : LeasesHold t := by
  obtain ⟨parties, claims⟩ := (leasesHold_iff s).mp h
  have tables {u : State} (kept : leasesKept s u) (terms : ∀ j, leaseTermsKept s u j) : LeasesHold u :=
    (leasesHold_iff u).mpr ⟨fun j => (parties j).of_tables kept (terms j).1 (leasePeriod_congr (terms j).2),
      by rw [kept.1]; exact claims⟩
  have sameClients {u : State} (kept : leasesKept s u) (clients : u.clients = s.clients) : LeasesHold u :=
    tables kept fun j => leaseTermsKept_of_client (by rw [client_congr clients]) (by rw [client_congr clients])
  have notOpen {k : ClientId} {st : ClientState} (e : (s.client k).state = st) (n : st ≠ .active ∧ st ≠ .publishing) :
      ¬ isOpen (s.client k) := by
    rintro (o | o) <;> rw [e] at o
    · exact n.1 o
    · exact n.2 o
  cases piece with
  | quiet q =>
    exact sameClients ⟨by rw [q.frame], by rw [q.frame], by rw [q.frame]⟩ (by rw [q.frame])
  | settle => exact (leasesHold_iff _).mpr ⟨fun j => (parties j).settle claims, nofun⟩
  | decrement => exact (leasesHold_iff _).mpr ⟨fun j => (parties j).countDown, by rw [countDown_leaseInbox]; exact claims⟩
  | claim k =>
    refine (leasesHold_iff _).mpr ⟨fun j => (parties j).congr rfl .rfl .rfl rfl, fun m hm => ?_⟩
    obtain old | new := List.mem_append.mp hm
    · exact claims m old
    · exact ⟨k, List.mem_singleton.mp new⟩
  | panel p => exact sameClients (leasesKept_refl s) rfl
  | @ignore _ k n =>
    have absent := ((parties k).not_open fun o => o.elim n.1 n.2).2
    refine (leasesHold_iff _).mpr ⟨fun j => (parties j).congr rfl ?_ .rfl rfl, claims⟩
    show j ∈ s.lapsePending.filter (fun i => decide (i ≠ k)) ↔ _
    simp only [ne_eq, decide_not, List.mem_filter, Bool.not_eq_eq_eq_not, Bool.not_true, decide_eq_false_iff_not,
      and_iff_left_iff_imp]
    rintro hj rfl
    exact absent hj
  | @reserve _ m hd i asked checks =>
    refine tables (leasesKept_of_tables (reserveRecord_tables _ _ _ s)) fun j => ?_
    have client := client_reserveRecord i hd.client j (createPart m) s
    split_ifs at client <;> exact leaseTermsKept_of_client (by rw [client]) (by rw [client])
  | edit asked checks => exact sameClients (leasesKept_of_tables (setRegion_tables _ _ s)) (by simp)
  | mark asked live own => exact sameClients (leasesKept_of_tables (setRegion_tables _ _ s)) (by simp)
  | @release _ hd i g asked reserved own =>
    refine tables (leasesKept_of_tables (retireReserved_tables _ _ s)) fun j => ?_
    have client := client_retireReserved i hd.client j s
    rw [client_freeRecords] at client
    split_ifs at client <;> exact leaseTermsKept_of_client (by rw [client]) (by rw [client])
  | restack asked checks =>
    exact tables (leasesKept_of_tables (updClient_tables _ _ s)) fun j => leaseTermsKept_updClient _ j _ fun _ => ⟨.rfl, rfl⟩
  | discard k notHeld =>
    exact tables (leasesKept_of_tables (discardStaging_tables k s)) fun j => leaseTermsKept_discardStaging k s j
  | @park _ hd asked copying =>
    refine tables ⟨by simp [parkPublish], by simp [parkPublish], by simp [parkPublish]⟩ fun j => ?_
    have client := client_parkPublish hd.client j hd.tag s
    split_ifs at client with own
    · exact ⟨by rw [client]; exact ⟨fun _ => own ▸ .inl (asked.active rfl), fun _ => .inr rfl⟩, by rw [client]⟩
    · exact leaseTermsKept_of_client (by rw [client]) (by rw [client])
  | publish asked =>
    exact tables (leasesKept_of_tables (applyPublish_tables _ s)) fun j =>
      leaseTermsKept_applyPublish (.inl (asked.active rfl)) j
  | @pop _ e rest notHeld parked =>
    obtain ⟨-, -, agree, -⟩ := (recordsHold_iff s).mp records
    have popped : leasesKept s { s with parked := rest } := ⟨rfl, rfl, rfl⟩
    have parties' (j : ClientId) : LeaseParty { s with parked := rest } j := (parties j).of_tables popped .rfl rfl
    cases e with
    | publish k tag =>
      have publishing := (agree k).publishing.mpr (.inl (by rw [parked]; simp))
      exact tables (leasesKept_trans popped (leasesKept_of_tables (applyPublish_tables k _)))
        fun j => leaseTermsKept_applyPublish (s := { s with parked := rest }) (.inr publishing) j
    | close k tag =>
      have closing := (agree k).closing.mpr (by rw [parked]; simp)
      have kept := leasesKept_of_tables (applyClose_tables k { s with parked := rest })
      exact (leasesHold_iff _).mpr ⟨fun j => .applyClose parties' (notOpen closing (by simp)), by rw [applyEntry, kept.1]; exact claims⟩
    | clearAll tag =>
      have supervisor' : SupervisorHolds { s with parked := rest } := by
        obtain ⟨lease, opened, noLoad⟩ := (supervisorHolds_iff s).mp supervisor
        exact (supervisorHolds_iff _).mpr ⟨.congr (s := s) rfl rfl lease,
          opened.of_le opened.state rfl (fun c => by rw [parked]; simp [c]) id, noLoad⟩
      exact (leasesHold_iff _).mpr ⟨fun j => .applyClear supervisor', nofun⟩
  | clear asked copying => exact (leasesHold_iff _).mpr ⟨fun j => .applyClear supervisor, nofun⟩
  | parkClear asked copying => exact sameClients (leasesKept_refl s) rfl
  | @resume _ hd asked lapsed =>
    refine (leasesHold_iff _).mpr ⟨fun j => .load _ parties claims (notOpen lapsed (by simp)) (.inl rfl) ?_, nofun⟩
    exact leasePeriod_congr (by rw [client_updClient_same])
  | @opening _ m hd k tm asked fields closed =>
    refine (leasesHold_iff _).mpr ⟨fun j => .load _ parties claims (notOpen closed (by simp)) (.inl rfl) ?_, nofun⟩
    unfold leasePeriod
    rw [client_updClient_same]
  | @cancel _ k ptag tag closing parked =>
    refine tables ⟨by simp, by simp, by simp⟩ fun j => ?_
    have client := client_removePublish k j s
    have same : ({ removePublish k s with engine := .working (.closeTail k tag (isCopying s)) } : State).client j =
        (removePublish k s).client j := rfl
    split_ifs at client <;> exact leaseTermsKept_of_client (by rw [same, client]) (by rw [same, client])
  | closePark may =>
    rw [closeTail_parks]
    exact leasesHold_engine (closingLeases_closeBegun parties claims).flagged
  | closeNow may => exact leasesHold_work (closingLeases_closeBegun parties claims).closed
  | @lapse _ k notHeld pending opened =>
    have kept := lapsedState_leasesKept k (noticeTaken k s)
    exact (leasesHold_iff _).mpr ⟨fun j => .lapse parties pending, by rw [kept.1]; exact claims⟩

/-- The claim at the head of the inbox, taken as an event of its own. -/
theorem LeaseParty.claim {s : State} {k j : ClientId} (h : LeaseParty s j) : LeaseParty (takeClaim k s) j := by
  have only : ClaimsOnly ([.claim k] : List LeaseMsg) := fun m hm => ⟨k, List.mem_singleton.mp hm⟩
  have waiting : LeaseParty { s with leaseInbox := [.claim k] } j := h.congr rfl .rfl .rfl rfl
  have client : (takeClaim k s).client j = s.client j := leaseFrame_client (takeLeaseMsg_frame s (.claim k)) j
  have settled := waiting.settle only
  obtain ⟨pending, counters⟩ := settleLease_claims (s := { s with leaseInbox := [.claim k] }) only
  have counter : (takeClaim k s).counter j = (settleLease { s with leaseInbox := [.claim k] }).counter j := by
    rw [counters, counter_takeClaim]
    by_cases own : j = k
    · subst own
      simp [State.counter, leasePeriod, State.client]
    · simp [own, State.counter]
  refine settled.congr counter ?_ (by rw [client, settleLease_client]; rfl) (leasePeriod_congr ?_)
  · rw [pending, takeClaim_lapsePending]
  · rw [client, settleLease_client]; rfl

theorem LeasesHold.congr {s t : State} (h : LeasesHold s) (clients : t.clients = s.clients) (leases : leasesKept s t) :
    LeasesHold t := by
  obtain ⟨parties, claims⟩ := (leasesHold_iff s).mp h
  exact (leasesHold_iff t).mpr ⟨fun j => (parties j).of_tables leases (by rw [client_congr clients])
    (leasePeriod_congr (by rw [client_congr clients])), by rw [leases.1]; exact claims⟩

theorem LeasesHold.monitor {c : Instr} {s t : State} (h : LeasesHold s) (monitor : c.agent = .leaseMonitor)
    (run : exec c s = .next t) : LeasesHold t := by
  obtain ⟨parties, claims⟩ := (leasesHold_iff s).mp h
  obtain rfl | ⟨m, rest, inbox, rfl⟩ | rfl | rfl := exec_monitorEvent monitor run
  · exact h
  · obtain ⟨k, rfl⟩ := claims m (by rw [inbox]; exact List.mem_cons_self)
    have waiting (j : ClientId) : LeaseParty { s with leaseInbox := rest } j := (parties j).congr rfl .rfl .rfl rfl
    refine (leasesHold_iff _).mpr ⟨fun j => (waiting j).claim, fun m hm => claims m ?_⟩
    rw [takeLeaseMsg_leaseInbox] at hm
    rw [inbox]
    exact List.mem_cons_of_mem _ hm
  · exact (leasesHold_iff _).mpr ⟨fun j => (parties j).countDown, by rw [countDown_leaseInbox]; exact claims⟩
  · exact (leasesHold_iff _).mpr ⟨fun j => (parties j).expire, claims⟩

theorem leasesHold_reset : LeasesHold State.reset := by
  refine (leasesHold_iff _).mpr ⟨fun k => ?_, nofun⟩
  refine ⟨fun e => ?_, fun _ => by rw [counter_reset], fun _ e => absurd ?_ e, nofun⟩
  · rw [counter_reset] at e; cases e
  · unfold leasePeriod
    rw [client_reset]
    split_ifs <;> rfl

/-- Settles O58: the limits hold of each operation and event, and R92's table for each client follows its record. -/
theorem clientLimitsKept : Obligations.ClientLimitsKept := by
  refine ⟨fun s t h run => clientLimitsHold_step h run, fun s t rest records supervisor leases run => ?_⟩
  refine (step_keeps_of_pieces (P := fun u => RecordsHold u ∧ SupervisorHolds u ∧ LeasesHold u)
    (fun u v op ready h => ⟨op.records ready h.1, op.supervisor h.2.1, op.leasesHold h.1 h.2.1 h.2.2⟩)
    (fun s l h => ⟨h.1.of_tables rfl rfl rfl rfl, h.2.1.congr rfl rfl rfl ⟨rfl, rfl, rfl⟩, h.2.2.congr rfl ⟨rfl, rfl, rfl⟩⟩)
    (fun c s t engine reset run h => ?_)
    (fun level s => ⟨recordsHold_reset.of_tables rfl rfl rfl rfl, supervisorHolds_reset.congr rfl rfl rfl ⟨rfl, rfl, rfl⟩,
      leasesHold_reset.congr rfl ⟨rfl, rfl, rfl⟩⟩) rest run ⟨records, supervisor, leases⟩).2.2
  obtain ⟨records, supervisor, leases⟩ := h
  have tables := exec_tables engine reset run
  refine ⟨records.of_tables tables.regions tables.clients tables.parked tables.heldClose, ?_⟩
  by_cases monitor : c.agent = .leaseMonitor
  · exact ⟨supervisor.monitor monitor run, leases.monitor monitor run⟩
  · have inert := exec_inert engine monitor reset run
    have kept : leasesKept s t := ⟨inert.leaseInbox, inert.counters, inert.lapsePending⟩
    exact ⟨supervisor.congr inert.clients inert.parked inert.heldClose kept, leases.congr inert.clients kept⟩

end Sys2Proof.Machine
end

section
/-! PROOF. What each block beside the Request Engine may change, said once per block, and the agreement of the engine, the Parked
List and the copy between commands (R76, R82, R83, R85, R86). -/

namespace Sys2Proof.Machine

/-! ### One frame per block -/

/-- What a bus transaction of the host may change: the two queues of the Request Port, its assembly, status pair, flags and
enables, and, by the room that a read makes, the engine and the copy-end indication (R82, R164 to R177). -/
def hostFrame (s t : State) : Prop :=
  t = { s with
    requests := t.requests, assembly := t.assembly, answers := t.answers, answerRead := t.answerRead
    statusHeld := t.statusHeld, lastReadEmpty := t.lastReadEmpty, flags := t.flags, enables := t.enables
    rqData := t.rqData, engine := t.engine, copyEndDue := t.copyEndDue }

/-- What FRAME_START and LINE_START may change beside the counters: the builder, the roles of the lists, the Snapshot Unit's
state and the flags (R104, R105, R127). -/
def timingFrame (s t : State) : Prop :=
  t = { s with
    frameCounter := t.frameCounter, lineCounter := t.lineCounter, builder := t.builder, showing := t.showing
    snapState := t.snapState, flags := t.flags }

/-- What the Snapshot Unit may change (R115 to R121). -/
def snapshotFrame (s t : State) : Prop :=
  t = { s with
    snapFrame := t.snapFrame, snapState := t.snapState, listA := t.listA, listB := t.listB, copyEndDue := t.copyEndDue }

/-- What the span path may change (R139 to R145). -/
def spanFrame (s t : State) : Prop :=
  t = { s with builder := t.builder, spanQueue := t.spanQueue, spanPort := t.spanPort, flags := t.flags }

/-- What the touch controller may change (R149 to R151, R161). -/
def touchFrame (s t : State) : Prop :=
  t = { s with
    points := t.points, pointBytes := t.pointBytes, flags := t.flags, lookupAnswers := t.lookupAnswers
    lookupRead := t.lookupRead, lkByte := t.lkByte, lkSel := t.lkSel }

/-- What the Lookup Engine may change (R113, R153, R154). -/
def lookupFrame (s t : State) : Prop :=
  t = { s with
    listA := t.listA, listB := t.listB, points := t.points, lookup := t.lookup, lookupAnswers := t.lookupAnswers }

section

variable {s t u : State}

theorem hostFrame_trans (h : hostFrame s t) (g : hostFrame t u) : hostFrame s u := by
  unfold hostFrame at *; rw [h] at g; exact g

theorem spanFrame_trans (h : spanFrame s t) (g : spanFrame t u) : spanFrame s u := by
  unfold spanFrame at *; rw [h] at g; exact g

theorem hostFrame_refl (s : State) : hostFrame s s := by cases s; rfl

theorem spanFrame_refl (s : State) : spanFrame s s := by cases s; rfl

theorem placeAnswer_hostFrame (a : Answer) (r : Resume) (s : State) : hostFrame s (placeAnswer a r s) := by
  obtain ⟨-, p⟩ | ⟨-, p⟩ := placeAnswer_cases a r s <;> rw [p]
  · cases r with
    | application => simp only [answerPlaced]; split <;> cases s <;> rfl
    | _ => cases s; rfl
  · cases s; rfl

theorem placeHeld_hostFrame (s : State) : hostFrame s (placeHeld s) := by
  obtain ⟨a, r, -, h⟩ | ⟨-, h⟩ := placeHeld_cases s <;> rw [h]
  · exact placeAnswer_hostFrame a r s
  · exact hostFrame_refl s

theorem advanceAnswerRead_hostFrame (s : State) : hostFrame s (advanceAnswerRead s) := by
  unfold advanceAnswerRead
  split
  · exact hostFrame_refl s
  · next rest _ =>
    have drop : hostFrame s { s with answers := rest, answerRead := 0 } := by cases s; rfl
    split
    · cases s; rfl
    · exact hostFrame_trans drop (placeHeld_hostFrame _)

theorem readAnswer_hostFrame (s : State) : hostFrame s (readAnswer s) := by
  refine hostFrame_trans (advanceAnswerRead_hostFrame s) ?_
  unfold readAnswer
  cases advanceAnswerRead s
  rfl

theorem writeRequest_hostFrame (w : Word) (s : State) : hostFrame s (writeRequest w s) := by
  unfold writeRequest assembleWord admitMessage
  dsimp only
  split_ifs <;> cases s <;> rfl

/-- Every transaction of the host stays within `hostFrame`. -/
theorem exec_hostFrame {c : Instr} (host : c.agent = .host) (h : exec c s = .next t) : hostFrame s t := by
  have high {f : State → State} (effect : hostFrame s (f s)) (g : whileHigh f s = .next t) : hostFrame s t :=
    whileHigh_rel (hostFrame_refl s) effect g
  cases c with
  | requestWordWrite w => exact high (writeRequest_hostFrame w s) h
  | answerRead => exact high (readAnswer_hostFrame s) h
  | answerWindowWrite access => exact high (f := quietEdge access) (by cases s; rfl) h
  | statusRead =>
    refine high ?_ h
    unfold readStatus
    split <;> cases s <;> rfl
  | eventFlagClear w => exact high (f := statusWrite w) (by cases s; rfl) h
  | assemblyAbandon w => exact high (f := statusWrite w) (by cases s; rfl) h
  | enableWrite w => exact high (f := writeEnables w) (by cases s; rfl) h
  | _ => cases host

/-- FRAME_START and LINE_START stay within `timingFrame`. -/
theorem exec_timingFrame {c : Instr} (timing : c.agent = .timingInput) (h : exec c s = .next t) : timingFrame s t := by
  have high {f : State → State} (effect : timingFrame s (f s)) (g : whileHigh f s = .next t) : timingFrame s t :=
    whileHigh_rel (by cases s; rfl) effect g
  cases c with
  | frameStart => exact high (f := countFrame) (by cases s; rfl) h
  | lineStart =>
    refine high ?_ h
    rw [takeLine, abandonBuild_eq, promotionOfLine_eq, beginBuild_eq]
    cases s
    rfl
  | _ => cases timing

/-- The Snapshot Unit's events stay within `snapshotFrame`. -/
theorem exec_snapshotFrame {c : Instr} (unit : c.agent = .snapshotUnit) (h : exec c s = .next t) : snapshotFrame s t := by
  have same : snapshotFrame s s := by cases s; rfl
  have high {f : State → State} (effect : snapshotFrame s (f s)) (g : whileHigh f s = .next t) : snapshotFrame s t :=
    whileHigh_rel same effect g
  cases c with
  | snapshotFrameStart =>
    refine high ?_ h
    unfold advanceSnapshot
    dsimp only
    split
    · cases s; rfl
    · cases s; rfl
    · rw [updScanList_frame]; cases s; rfl
    · rw [updScanList_frame]; cases s; rfl
  | copyStart =>
    refine high ?_ h
    unfold startCopy
    split
    · rw [updScanList_frame]; cases s; rfl
    · exact same
  | copyComplete =>
    refine high ?_ h
    unfold completeCopy
    split
    · rw [updScanList_frame]; cases s; rfl
    · exact same
  | _ => cases unit

theorem beginLine_spanFrame (s : State) : spanFrame s (beginLine s) := by
  unfold beginLine
  split <;> cases s <;> rfl

theorem discardOlder_spanFrame (s : State) : spanFrame s (discardOlder s) := by
  unfold discardOlder
  split
  · exact spanFrame_refl s
  · cases s; rfl

theorem queueLine_spanFrame (l : Line) (s : State) : spanFrame s (queueLine l s) := by
  have joins (v : State) : spanFrame v { v with spanQueue := v.spanQueue ++ [l] } := by cases v; rfl
  have room : spanFrame s (if s.spanQueue.length < Config.spanQueueSize then s else discardOlder s) := by
    split
    · exact spanFrame_refl s
    · exact discardOlder_spanFrame s
  unfold queueLine
  dsimp only
  split
  · exact spanFrame_trans (spanFrame_trans room (joins _)) (beginLine_spanFrame _)
  · exact spanFrame_trans room (joins _)

theorem completeBuild_spanFrame (s : State) : spanFrame s (completeBuild s) := by
  unfold completeBuild
  split
  · exact spanFrame_refl s
  · dsimp only
    split
    · exact spanFrame_trans (t := ({ s with builder := .idle } : State).setSpanOverflow) (by cases s; rfl) (queueLine_spanFrame _ _)
    · exact spanFrame_trans (t := { s with builder := .idle }) (by cases s; rfl) (queueLine_spanFrame _ _)

theorem acceptWord_spanFrame (s : State) : spanFrame s (acceptWord s) := by
  unfold acceptWord
  split
  · exact spanFrame_refl s
  · split
    · cases s; rfl
    · exact spanFrame_trans (t := { s with spanQueue := s.spanQueue.tail }) (by cases s; rfl) (beginLine_spanFrame _)
  · split
    · cases s; rfl
    · exact beginLine_spanFrame s

/-- The span path's events stay within `spanFrame`. -/
theorem exec_spanFrame {c : Instr} (path : c.agent = .spanPath) (h : exec c s = .next t) : spanFrame s t := by
  have high {f : State → State} (effect : spanFrame s (f s)) (g : whileHigh f s = .next t) : spanFrame s t :=
    whileHigh_rel (spanFrame_refl s) effect g
  cases c with
  | buildComplete => exact high (completeBuild_spanFrame s) h
  | spanWordAccepted => exact high (acceptWord_spanFrame s) h
  | _ => cases path

/-- The touch controller's events stay within `touchFrame`. -/
theorem exec_touchFrame {c : Instr} (touch : c.agent = .touchController) (h : exec c s = .next t) : touchFrame s t := by
  have same : touchFrame s s := by cases s; rfl
  have high {f : State → State} (effect : touchFrame s (f s)) (g : whileHigh f s = .next t) : touchFrame s t :=
    whileHigh_rel same effect g
  cases c with
  | pointByteWrite b =>
    refine high ?_ h
    unfold writePointByte completePoint
    dsimp only
    split_ifs <;> cases s <;> rfl
  | lkSelFall level => cases level <;> cases h <;> cases s <;> rfl
  | lookupAnswerRead =>
    refine high ?_ h
    unfold readLookupByte advanceLookupRead
    split
    · split
      · cases s; rfl
      · split <;> cases s <;> rfl
    · exact same
  | _ => cases touch

/-- The Lookup Engine's events stay within `lookupFrame`. -/
theorem exec_lookupFrame {c : Instr} (engine : c.agent = .lookupEngine) (h : exec c s = .next t) : lookupFrame s t := by
  have same : lookupFrame s s := by cases s; rfl
  have high {f : State → State} (effect : lookupFrame s (f s)) (g : whileHigh f s = .next t) : lookupFrame s t :=
    whileHigh_rel same effect g
  cases c with
  | lookupTake =>
    refine high ?_ h
    unfold takePoint
    split
    · split
      · rw [updScanList_frame]; cases s; rfl
      · exact same
    · exact same
  | lookupComplete =>
    refine high ?_ h
    unfold completeLookup
    split
    · exact same
    · rw [updScanList_frame]; cases s; rfl
  | _ => cases engine

end

/-- The blocks beside the Request Engine, with what each may change; the remaining agent is RESET. -/
inductive BlockStep (c : Instr) (s t : State) : Prop
  | host (agent : c.agent = .host) (frame : hostFrame s t)
  | lease (agent : c.agent = .leaseMonitor) (frame : leaseFrame s t)
  | timing (agent : c.agent = .timingInput) (frame : timingFrame s t)
  | snapshot (agent : c.agent = .snapshotUnit) (frame : snapshotFrame s t)
  | span (agent : c.agent = .spanPath) (frame : spanFrame s t)
  | touch (agent : c.agent = .touchController) (frame : touchFrame s t)
  | lookup (agent : c.agent = .lookupEngine) (frame : lookupFrame s t)

theorem exec_block {c : Instr} {s t : State} (engine : c.agent ≠ .requestEngine) (reset : c.agent ≠ .resetInput)
    (h : exec c s = .next t) : BlockStep c s t := by
  cases agent : c.agent with
  | requestEngine => exact absurd agent engine
  | resetInput => exact absurd agent reset
  | host => exact .host agent (exec_hostFrame agent h)
  | leaseMonitor => exact .lease agent (exec_leaseFrame agent h)
  | timingInput => exact .timing agent (exec_timingFrame agent h)
  | snapshotUnit => exact .snapshot agent (exec_snapshotFrame agent h)
  | spanPath => exact .span agent (exec_spanFrame agent h)
  | touchController => exact .touch agent (exec_touchFrame agent h)
  | lookupEngine => exact .lookup agent (exec_lookupFrame agent h)

/-! ### The engine at rest -/

/-- The clauses of `EngineAtRest` that hold only between commands. -/
structure Rested (s : State) : Prop where
  notWorking : s.engine ≠ .working .finish
  stalledFull : ∀ a r, s.engine = .stalled a r → 16 ≤ s.answers.length
  noCommittedWork : s.committedWork = false
  applicationDue : heldApplication s = true → s.copyEndDue = true

theorem engineAtRest_iff (s : State) : EngineAtRest s ↔ Ready s ∧ Rested s :=
  ⟨fun h => ⟨h.ready, ⟨h.notWorking, h.stalledFull, h.noCommittedWork, h.applicationDue⟩⟩,
  fun ⟨⟨parked, close, copying⟩, ⟨working, stalled, committed, due⟩⟩ =>
    ⟨working, stalled, committed, parked, close, due, copying⟩⟩

theorem rested_free {s : State} (engine : s.engine = .free) (committed : s.committedWork = false) : Rested s where
  notWorking := by simp [engine]
  stalledFull a r e := by rw [engine] at e; cases e
  noCommittedWork := committed
  applicationDue h := by simp [heldApplication, engine] at h

theorem rested_finishPiece {s : State} (committed : s.committedWork = false) : Rested (finishPiece s) :=
  rested_free rfl committed

/-- An answer is placed or held at the end of a piece of work, or with a rest that a later command carries out (R76). -/
theorem rested_placeAnswer {s : State} {r : Resume} (a : Answer) (committed : s.committedWork = false)
    (due : r = .application → s.copyEndDue = true) : Rested (placeAnswer a r s) := by
  obtain ⟨-, p⟩ | ⟨full, p⟩ := placeAnswer_cases a r s <;> rw [p]
  · cases r with
    | finish => exact rested_free rfl committed
    | closeTail k tag parks => exact ⟨by simp [answerPlaced], by simp [answerPlaced], committed, by simp [answerPlaced, heldApplication]⟩
    | application =>
      simp only [answerPlaced]
      split
      · exact rested_free rfl committed
      · exact ⟨by simp, by simp, committed, fun _ => due rfl⟩
  · refine ⟨by simp, fun _ _ _ => full, committed, fun h => ?_⟩
    cases r with
    | application => exact due rfl
    | _ => cases h

theorem rested_placeLast {s : State} (a : Answer) (committed : s.committedWork = false) : Rested (placeLast a s) :=
  rested_placeAnswer a committed nofun

theorem rested_answerRequest {s : State} (kind : RequestKind) (h : Header) (r : Reply) (committed : s.committedWork = false) :
    Rested (answerRequest kind h r s) :=
  rested_placeLast _ committed

theorem applyEntry_committedWork (e : ParkedEntry) (s : State) : (applyEntry e s).1.committedWork = s.committedWork := by
  cases e with
  | publish k tag => rw [applyEntry, applyPublish_tables k s]
  | close k tag => rw [applyEntry, applyClose_tables k s]
  | clearAll tag => simp [applyEntry]

theorem rested_applyNow (e : ParkedEntry) (s : State) : Rested (applyNow e s) := by
  rw [applyNow_eq]
  exact rested_placeLast _ rfl

theorem rested_applyNext {s : State} (committed : s.committedWork = false) (due : s.copyEndDue = true) :
    Rested (applyNext s) := by
  obtain ⟨-, e⟩ | ⟨e, rest, -, eq⟩ := applyNext_cases s
  · rw [e]; exact rested_free rfl committed
  · obtain ⟨-, kept, -⟩ := applyEntry_quiets e { s with parked := rest }
    rw [eq]
    exact rested_placeAnswer _ ((applyEntry_committedWork e _).trans committed) fun _ => kept.trans due

theorem rested_closeTail {s : State} (k : ClientId) (tag : Tag) (parks : Bool) (committed : s.committedWork = false) :
    Rested (closeTail k tag parks s) := by
  cases parks with
  | true =>
    rw [closeTail_parks]
    exact rested_free rfl (by simp [closeBegun, committed])
  | false => exact rested_applyNow _ _

theorem rested_goOn {s : State} (rested : Rested s) : Rested (goOn s) := by
  obtain ⟨w, e⟩ | ⟨k, tag, parks, w, e⟩ | ⟨w, e⟩ | ⟨-, e⟩ := goOn_cases s <;> rw [e]
  · exact absurd w rested.notWorking
  · exact rested_closeTail k tag parks rested.noCommittedWork
  · exact rested_applyNext rested.noCommittedWork (rested.applicationDue (by simp [heldApplication, w]))
  · exact rested

/-- A held answer that is tried again is placed, or held while the Answer Queue is full (R82). -/
theorem rested_placeHeld {s : State} (working : s.engine ≠ .working .finish) (committed : s.committedWork = false)
    (due : heldApplication s = true → s.copyEndDue = true) : Rested (placeHeld s) := by
  obtain ⟨a, r, e, h⟩ | ⟨none, h⟩ := placeHeld_cases s <;> rw [h]
  · refine rested_placeAnswer a committed ?_
    rintro rfl
    exact due (by simp [heldApplication, e])
  · exact ⟨working, fun a r e => absurd e (none a r), committed, due⟩

/-! ### The requests -/

theorem takeRequest_committedWork {kind : Option RequestKind} {s t : State} {m : List Word}
    (h : takeRequest kind s = some (m, t)) : t.committedWork = s.committedWork := by
  obtain ⟨-, -, -, rest, -, -, rfl⟩ := takeRequest_eq_some.mp h
  simp

theorem rested_runRacing {race : LeaseRace} {kind : RequestKind} {own : List Word → Header → State → State} {s : State}
    (rested : Rested s) (work : ∀ m h u, u.committedWork = false → Rested (own m h u)) :
    Rested (runRacing race kind own s) := by
  obtain e | ⟨m, t, take, outcome⟩ := runRacing_cases race kind own s
  · rw [e]; exact rested
  have committed : (framedBy race t).committedWork = false := by
    rw [framedBy_frame race t]
    exact (takeRequest_committedWork take).trans rested.noCommittedWork
  obtain ⟨c, -, e⟩ | ⟨-, ⟨c, -, e⟩ | ⟨-, e⟩⟩ := outcome <;> rw [e]
  · exact rested_answerRequest _ _ _ committed
  · exact rested_answerRequest _ _ _ (by simpa using committed)
  · exact work _ _ _ (by simpa using committed)

section

variable (m : List Word) (h : Header) {s : State} (committed : s.committedWork = false)

include committed

theorem rested_ownCreate : Rested (ownCreate m h s) := by
  unfold ownCreate
  split <;> exact rested_answerRequest _ _ _ (by simp [reserveRecord, committed])

theorem rested_ownEdit : Rested (ownEdit m h s) := by
  unfold ownEdit
  split <;> exact rested_answerRequest _ _ _ (by simp [committed])

theorem rested_ownRetire : Rested (ownRetire m h s) := by
  unfold ownRetire
  split
  · exact rested_answerRequest _ _ _ committed
  · split_ifs <;> exact rested_answerRequest _ _ _ (by simp [retireReserved, committed])

theorem rested_ownRestack : Rested (ownRestack m h s) := by
  unfold ownRestack
  split <;> exact rested_answerRequest _ _ _ (by simp [committed])

theorem rested_ownPublish : Rested (ownPublish m h s) := by
  unfold ownPublish
  split_ifs
  · exact rested_answerRequest _ _ _ committed
  · exact rested_finishPiece (by simp [committed])
  · exact rested_applyNow _ s

theorem rested_ownQueryRegion : Rested (ownQueryRegion m h s) := by
  unfold ownQueryRegion
  split <;> exact rested_answerRequest _ _ _ committed

theorem rested_ownQueryClient : Rested (ownQueryClient m h s) := by
  unfold ownQueryClient
  split
  · exact rested_answerRequest _ _ _ committed
  · split_ifs <;> exact rested_answerRequest _ _ _ committed

theorem rested_ownResume : Rested (ownResume m h s) := by
  unfold ownResume
  split_ifs <;> exact rested_answerRequest _ _ _ (by simp [committed])

theorem rested_ownOpenClient : Rested (ownOpenClient m h s) := by
  unfold ownOpenClient
  split
  · exact rested_answerRequest _ _ _ committed
  · split_ifs <;> exact rested_answerRequest _ _ _ (by simp [committed])

theorem rested_takeClose (k : ClientId) (tag : Tag) : Rested (takeClose k tag s) := by
  unfold takeClose
  dsimp only
  split
  · exact rested_goOn (rested_placeAnswer _ (by simp [committed]) nofun)
  · exact rested_closeTail _ _ _ (by simp [committed])

theorem rested_ownCloseClient : Rested (ownCloseClient m h s) := by
  unfold ownCloseClient
  split
  · exact rested_answerRequest _ _ _ committed
  · split
    · exact rested_answerRequest _ _ _ committed
    · exact rested_answerRequest _ _ _ committed
    all_goals exact rested_takeClose committed _ _

theorem rested_ownClearAll : Rested (ownClearAll m h s) := by
  unfold ownClearAll
  split_ifs
  · exact rested_finishPiece committed
  · exact rested_applyNow _ s

theorem rested_ownSetPanel : Rested (ownSetPanel m h s) := by
  unfold ownSetPanel
  dsimp only
  split_ifs <;> exact rested_answerRequest _ _ _ committed

end

theorem rested_runQueryClient {s : State} (race : QueryRace) (rested : Rested s) : Rested (runQueryClient race s) := by
  unfold runQueryClient
  split
  · exact rested
  next m t take =>
  have committed : t.committedWork = false := (takeRequest_committedWork take).trans rested.noCommittedWork
  dsimp only
  split
  · split_ifs <;> exact rested_answerRequest _ _ _ (by simp [committed])
  · refine rested_ownQueryClient _ _ ?_
    rw [reloadWithin_frame race _ t]
    exact committed

theorem rested_takeLowestNotice {s : State} (rested : Rested s) : Rested (takeLowestNotice s) := by
  have committed := rested.noCommittedWork
  have lapsed (k : ClientId) (u : State) (c : u.committedWork = false) : Rested (lapseClient k u) := by
    unfold lapseClient
    dsimp only
    split
    · exact rested_placeLast _ (by split <;> simp [c])
    · exact rested_finishPiece (by split <;> simp [c])
  unfold takeLowestNotice
  split
  · split
    · unfold takeNotice
      dsimp only
      split
      · exact lapsed _ _ (by simp [committed])
      · exact lapsed _ _ (by simp [committed])
      all_goals exact rested_finishPiece (by simp [committed])
    · exact rested
  · exact rested

theorem rested_takeApplication {s : State} (rested : Rested s) : Rested (takeApplication s) := by
  unfold takeApplication
  split_ifs with due working
  · exact rested_applyNext (by simp [rested.noCommittedWork]) (by simp [due.2])
  · exact rested_applyNext rested.noCommittedWork (rested.applicationDue (by simp [heldApplication, working]))
  · exact rested

/-- After every command of the engine it is at rest again. -/
theorem exec_rested {c : Instr} {s t : State} (engine : c.agent = .requestEngine) (h : exec c s = .next t) (rested : Rested s) :
    Rested t := by
  have high {f : State → State} (effect : Rested (f s)) (g : whileHigh f s = .next t) : Rested t :=
    whileHigh_rel (R := fun _ t => Rested t) rested effect g
  cases c with
  | malformedMessage =>
    refine high ?_ h
    unfold runMalformed
    split
    · exact rested
    · next m u take => exact rested_placeLast _ ((takeRequest_committedWork take).trans rested.noCommittedWork)
  | create => exact high (rested_runRacing rested fun m h _ c => rested_ownCreate m h c) h
  | edit => exact high (rested_runRacing rested fun m h _ c => rested_ownEdit m h c) h
  | retire => exact high (rested_runRacing rested fun m h _ c => rested_ownRetire m h c) h
  | restack => exact high (rested_runRacing rested fun m h _ c => rested_ownRestack m h c) h
  | discard => exact high (rested_runRacing rested fun m h _ c => rested_answerRequest _ _ _ (by simp [c])) h
  | publish => exact high (rested_runRacing rested fun m h _ c => rested_ownPublish m h c) h
  | renew => exact high (rested_runRacing rested fun m h _ c => rested_answerRequest _ _ _ c) h
  | queryRegion => exact high (rested_runRacing rested fun m h _ c => rested_ownQueryRegion m h c) h
  | queryClient race => exact high (rested_runQueryClient race rested) h
  | resume race => exact high (rested_runRacing rested fun m h _ c => rested_ownResume m h c) h
  | openClient race => exact high (rested_runRacing rested fun m h _ c => rested_ownOpenClient m h c) h
  | closeClient race => exact high (rested_runRacing rested fun m h _ c => rested_ownCloseClient m h c) h
  | clearAll race => exact high (rested_runRacing rested fun m h _ c => rested_ownClearAll m h c) h
  | setPanel => exact high (rested_runRacing rested fun m h _ c => rested_ownSetPanel m h c) h
  | heldAnswerPlacement =>
    exact high (f := fun s => goOn (placeHeld s))
      (rested_goOn (rested_placeHeld rested.notWorking rested.noCommittedWork rested.applicationDue)) h
  | lapseNotice => exact high (rested_takeLowestNotice rested) h
  | copyEndApplication => exact high (rested_takeApplication rested) h
  | _ => cases engine

/-! ### The other blocks -/

/-- The fields that `EngineAtRest` reads. -/
theorem EngineAtRest.congr {s t : State} (rest : EngineAtRest s) (engine : t.engine = s.engine) (answers : t.answers = s.answers)
    (committed : t.committedWork = s.committedWork) (parked : t.parked = s.parked) (snap : isCopying t = isCopying s)
    (due : t.copyEndDue = s.copyEndDue) : EngineAtRest t := by
  obtain ⟨working, stalled, noWork, parkedWhen, close, application, copying⟩ := rest
  refine ⟨?_, ?_, ?_, ?_, ?_, ?_, ?_⟩
  · rwa [engine]
  · rwa [engine, answers]
  · rwa [committed]
  · rwa [parked, snap, due]
  · rwa [heldClose_congr engine, snap, due]
  · unfold heldApplication
    rwa [engine, due]
  · rwa [snap, due]

theorem engineAtRest_reset : EngineAtRest State.reset := by
  have parked : State.reset.parked = [] := rfl
  have notCopying : isCopying State.reset = false := rfl
  have notHeld : heldClose State.reset = none := rfl
  refine (engineAtRest_iff _).mpr ⟨⟨fun p => absurd parked p, fun k parks held => ?_, fun copying => ?_⟩, rested_free rfl rfl⟩
  · rw [notHeld] at held; cases held
  · rw [notCopying] at copying; cases copying

theorem EngineAtRest.readAnswer {s : State} (rest : EngineAtRest s) : EngineAtRest (readAnswer s) := by
  have advanced : EngineAtRest (advanceAnswerRead s) := by
    unfold advanceAnswerRead
    split
    · exact rest
    · next others _ =>
      split
      · exact rest.congr rfl rfl rfl rfl rfl rfl
      · have ready : Ready { s with answers := others, answerRead := 0 } := rest.ready.of_le rfl rfl .inl fun _ _ h => h
        have rested := rested_placeHeld (s := { s with answers := others, answerRead := 0 }) rest.notWorking
          rest.noCommittedWork rest.applicationDue
        exact (engineAtRest_iff _).mpr ⟨(placeHeld_pieces _).keeps (fun _ _ op r => op.ready r) ready, rested⟩
  exact advanced.congr rfl rfl rfl rfl rfl rfl

theorem EngineAtRest.host {c : Instr} {s t : State} (rest : EngineAtRest s) (host : c.agent = .host) (h : exec c s = .next t) :
    EngineAtRest t := by
  have high {f : State → State} (effect : EngineAtRest (f s)) (g : whileHigh f s = .next t) : EngineAtRest t :=
    whileHigh_rel (R := fun _ t => EngineAtRest t) rest effect g
  cases c with
  | requestWordWrite w =>
    refine high ?_ h
    unfold writeRequest assembleWord admitMessage
    dsimp only
    split_ifs <;> exact rest.congr rfl rfl rfl rfl rfl rfl
  | answerRead => exact high rest.readAnswer h
  | answerWindowWrite access => exact high (f := quietEdge access) (rest.congr rfl rfl rfl rfl rfl rfl) h
  | statusRead =>
    refine high ?_ h
    unfold readStatus
    split <;> exact rest.congr rfl rfl rfl rfl rfl rfl
  | eventFlagClear w => exact high (f := statusWrite w) (rest.congr rfl rfl rfl rfl rfl rfl) h
  | assemblyAbandon w => exact high (f := statusWrite w) (rest.congr rfl rfl rfl rfl rfl rfl) h
  | enableWrite w => exact high (f := writeEnables w) (rest.congr rfl rfl rfl rfl rfl rfl) h
  | _ => cases host

/-- The end of a copy makes an application due; its start finds none due and the Parked List empty (R86, R118). -/
theorem EngineAtRest.snapshot {c : Instr} {s t : State} (rest : EngineAtRest s) (unit : c.agent = .snapshotUnit)
    (h : exec c s = .next t) : EngineAtRest t := by
  have high {f : State → State} (effect : EngineAtRest (f s)) (g : whileHigh f s = .next t) : EngineAtRest t :=
    whileHigh_rel (R := fun _ t => EngineAtRest t) rest effect g
  have ended (u : State) (engine : u.engine = s.engine) (answers : u.answers = s.answers)
      (committed : u.committedWork = s.committedWork) (notCopying : isCopying u = false) (due : u.copyEndDue = true) :
      EngineAtRest u := by
    refine ⟨by rw [engine]; exact rest.notWorking, by rw [engine, answers]; exact rest.stalledFull,
      by rw [committed]; exact rest.noCommittedWork, fun _ => .inr due, fun k parks held => ⟨?_, .inr due⟩, fun _ => due,
      fun copying => ?_⟩
    · rw [heldClose_congr engine] at held
      exact (rest.closeWaits k parks held).1
    · rw [notCopying] at copying; cases copying
  cases c with
  | snapshotFrameStart =>
    refine high ?_ h
    unfold advanceSnapshot
    dsimp only
    split
    · next state => exact rest.congr rfl rfl rfl rfl (by simp [isCopying, state]) rfl
    · next state => exact rest.congr rfl rfl rfl rfl (by simp [isCopying, state]) rfl
    · rw [updScanList_frame]
      exact ended _ rfl rfl rfl rfl rfl
    · next state =>
      rw [updScanList_frame]
      exact rest.congr rfl rfl rfl rfl (by simp [isCopying, state]) rfl
  | copyStart =>
    refine high ?_ h
    unfold startCopy
    split
    · next may =>
      have empty := copyMayStart_parked rest may
      simp only [copyMayStart, Bool.and_eq_true, decide_eq_true_eq, Bool.not_eq_true'] at may
      obtain ⟨⟨⟨-, notDue⟩, -⟩, -⟩ := may
      rw [updScanList_frame]
      exact ⟨rest.notWorking, rest.stalledFull, rest.noCommittedWork, fun p => absurd empty p,
        fun k parks held => ⟨(rest.closeWaits k parks held).1, .inl rfl⟩, rest.applicationDue, fun _ => notDue⟩
    · exact rest
  | copyComplete =>
    refine high ?_ h
    unfold completeCopy
    split
    · rw [updScanList_frame]
      exact ended _ rfl rfl rfl rfl rfl
    · exact rest
  | _ => cases unit

/-- A LINE_START leaves the unit COPYING or not, as it was (R122, R123). -/
theorem takeLine_isCopying (s : State) : isCopying (takeLine s) = isCopying s := by
  rw [takeLine, abandonBuild_eq, promotionOfLine_eq, beginBuild_eq]
  cases e : s.snapState with
  | ready => by_cases first : s.lineCounter = 0 <;> simp [isCopying, countLine, e, first]
  | _ => simp [isCopying, countLine, e]

theorem exec_timing_isCopying {c : Instr} {s t : State} (timing : c.agent = .timingInput) (h : exec c s = .next t) :
    isCopying t = isCopying s := by
  have high {f : State → State} (effect : isCopying (f s) = isCopying s) (g : whileHigh f s = .next t) :
      isCopying t = isCopying s :=
    whileHigh_rel (R := fun s t => isCopying t = isCopying s) rfl effect g
  cases c with
  | frameStart => exact high (f := countFrame) rfl h
  | lineStart => exact high (takeLine_isCopying s) h
  | _ => cases timing

theorem EngineAtRest.others {c : Instr} {s t : State} (rest : EngineAtRest s) (engine : c.agent ≠ .requestEngine)
    (reset : c.agent ≠ .resetInput) (h : exec c s = .next t) : EngineAtRest t := by
  obtain ⟨agent, -⟩ | ⟨-, f⟩ | ⟨agent, f⟩ | ⟨agent, -⟩ | ⟨-, f⟩ | ⟨-, f⟩ | ⟨-, f⟩ := exec_block engine reset h
  · exact rest.host agent h
  · exact rest.congr (by rw [f]) (by rw [f]) (by rw [f]) (by rw [f]) (isCopying_congr (by rw [f])) (by rw [f])
  · exact rest.congr (by rw [f]) (by rw [f]) (by rw [f]) (by rw [f]) (exec_timing_isCopying agent h) (by rw [f])
  · exact rest.snapshot agent h
  all_goals exact rest.congr (by rw [f]) (by rw [f]) (by rw [f]) (by rw [f]) (isCopying_congr (by rw [f])) (by rw [f])

/-- Settles O50: an engine's piece ends at rest, and the other blocks leave the engine, or make an application due, or find
none due. -/
theorem engineAtRestKept : Obligations.EngineAtRestKept := by
  intro s t rest h
  unfold step at h
  split at h
  · cases h; exact rest
  next c l _ =>
  have rest' : EngineAtRest { s with pending := l } := rest.congr rfl rfl rfl rfl rfl rfl
  by_cases engine : c.agent = .requestEngine
  · obtain ⟨ready, rested⟩ := (engineAtRest_iff _).mp rest'
    exact (engineAtRest_iff t).mpr
      ⟨(exec_pieces engine h).keeps (fun _ _ op r => op.ready r) ready, exec_rested engine h rested⟩
  by_cases isReset : c.agent = .resetInput
  · cases c with
    | deviceReset level => cases h; exact engineAtRest_reset.congr rfl rfl rfl rfl rfl rfl
    | _ => cases isReset
  · exact rest'.others engine isReset h

end Sys2Proof.Machine
end

section
/-! PROOF. Every step keeps the queues, assemblies, read positions and counters within their sizes (R82, R105, R141, R149, R152,
R161, R165, R167). -/

namespace Sys2Proof.Machine

/-! ### What an operation of the engine does to its two queues -/

/-- At most the oldest request leaves and one answer joins. -/
structure QueueWork (s t : State) : Prop where
  requests : t.requests = s.requests ∨ ∃ m, s.requests = m :: t.requests
  answers : t.answers = s.answers ∨ ∃ a, s.answers.length < 16 ∧ t.answers = s.answers ++ [a]

theorem QueueWork.same {s t : State} (requests : t.requests = s.requests) (answers : t.answers = s.answers) : QueueWork s t :=
  ⟨.inl requests, .inl answers⟩

theorem QueueWork.of_tables {s t : State} (frame : tableFrame s t) : QueueWork s t :=
  .same (by rw [frame]) (by rw [frame])

theorem QueueWork.of_lease {s t : State} (frame : leaseFrame s t) : QueueWork s t :=
  .same (by rw [frame]) (by rw [frame])

theorem Piece.queues {s t : State} (piece : Piece s t) : QueueWork s t := by
  cases piece with
  | quiet q => exact ⟨q.requests, q.answers⟩
  | settle => exact .of_lease (settleLease_frame s)
  | decrement => exact .of_lease (countDown_frame s)
  | claim k => exact .of_lease (handLease_frame _ s)
  | reserve asked checks => exact .of_tables (reserveRecord_tables _ _ _ s)
  | edit asked checks => exact .of_tables (setRegion_tables _ _ s)
  | mark asked live own => exact .of_tables (setRegion_tables _ _ s)
  | release asked reserved own => exact .of_tables (retireReserved_tables _ _ s)
  | restack asked checks => exact .of_tables (updClient_tables _ _ s)
  | discard k notHeld => exact .of_tables (discardStaging_tables k s)
  | park asked copying => exact .same (by simp [parkPublish]) (by simp [parkPublish])
  | publish asked => exact .of_tables (applyPublish_tables _ s)
  | @pop _ e rest notHeld parked =>
    cases e with
    | publish k tag => exact .same (by rw [applyEntry, applyPublish_tables k _]) (by rw [applyEntry, applyPublish_tables k _])
    | close k tag => exact .same (by rw [applyEntry, applyClose_tables k _]) (by rw [applyEntry, applyClose_tables k _])
    | clearAll tag => exact .same (by simp [applyEntry]) (by simp [applyEntry])
  | clear asked copying => exact .same (by simp) (by simp)
  | parkClear asked copying => exact .same rfl rfl
  | resume asked lapsed => exact .same (by simp) (by simp)
  | opening asked fields closed => exact .same (by simp) (by simp)
  | panel p => exact .same rfl rfl
  | cancel tag closing parked => exact .same (by simp) (by simp)
  | closePark tag may =>
    rw [closeTail_parks]
    exact .same (by simp [closeBegun]) (by simp [closeBegun])
  | @closeNow _ k may =>
    have applied := applyClose_tables k (closeBegun k s)
    exact .same (by rw [applied]; simp [closeBegun]) (by rw [applied]; simp [closeBegun])
  | @lapse _ k notHeld pending opened =>
    unfold lapsedState
    refine .same ?_ ?_ <;> rw [discardStaging_tables k] <;> split <;> simp [noticeTaken]
  | ignore notOpen => exact .of_lease (noticeTaken_frame _ s)

/-! ### The Request Port -/

/-- The bounds on the Request Queue, the assembly and the Answer Queue. -/
structure PortBounds (s : State) : Prop where
  requests : s.requests.length ≤ 16
  messages : ∀ m ∈ s.requests, 1 ≤ m.length ∧ m.length ≤ 16
  assembly : s.assembly.words = [] ∨ (s.assembly.words.length < s.assembly.length ∧ s.assembly.length ≤ 16)
  answers : s.answers.length ≤ 16
  answerRead : s.answerRead < (s.answers.head?.map answerLength).getD 1

/-- The bounds on the Point Queue, its assembly and the Lookup Answer Queue. -/
structure LookupBounds (s : State) : Prop where
  points : s.points.length ≤ 4
  pointBytes : s.pointBytes.length ≤ 4
  lookupAnswers : s.lookupAnswers.length ≤ 4
  lookupRoom : s.lookup ≠ .idle → s.lookupAnswers.length < 4
  lookupRead : s.lookupRead ≤ 17 ∧ (s.lookupAnswers = [] → s.lookupRead = 0)

theorem queueBounds_iff (s : State) :
    QueueBounds s ↔ PortBounds s ∧ LookupBounds s ∧ s.spanQueue.length ≤ 2 ∧ s.lineCounter ≤ 4095 :=
  ⟨fun ⟨requests, messages, assembly, answers, answerRead, points, pointBytes, lookups, room, read, queue, line⟩ =>
    ⟨⟨requests, messages, assembly, answers, answerRead⟩, ⟨points, pointBytes, lookups, room, read⟩, queue, line⟩,
  fun ⟨⟨requests, messages, assembly, answers, answerRead⟩, ⟨points, pointBytes, lookups, room, read⟩, queue, line⟩ =>
    ⟨requests, messages, assembly, answers, answerRead, points, pointBytes, lookups, room, read, queue, line⟩⟩

theorem PortBounds.congr {s t : State} (h : PortBounds s) (requests : t.requests = s.requests) (assembly : t.assembly = s.assembly)
    (answers : t.answers = s.answers) (read : t.answerRead = s.answerRead) : PortBounds t :=
  ⟨by rw [requests]; exact h.requests, by rw [requests]; exact h.messages, by rw [assembly]; exact h.assembly,
    by rw [answers]; exact h.answers, by rw [answers, read]; exact h.answerRead⟩

theorem LookupBounds.congr {s t : State} (h : LookupBounds s) (points : t.points = s.points)
    (bytes : t.pointBytes = s.pointBytes) (answers : t.lookupAnswers = s.lookupAnswers) (lookup : t.lookup = s.lookup)
    (read : t.lookupRead = s.lookupRead) : LookupBounds t :=
  ⟨by rw [points]; exact h.points, by rw [bytes]; exact h.pointBytes, by rw [answers]; exact h.lookupAnswers,
    by rw [lookup, answers]; exact h.lookupRoom, by rw [read, answers]; exact h.lookupRead⟩

theorem answerLength_pos (a : Answer) : 0 < answerLength a := by
  unfold answerLength
  omega

theorem PortBounds.push {s t : State} (h : PortBounds s) (a : Answer) (room : s.answers.length < 16)
    (answers : t.answers = s.answers ++ [a]) (requests : t.requests = s.requests) (assembly : t.assembly = s.assembly)
    (read : t.answerRead = s.answerRead) : PortBounds t := by
  refine ⟨by rw [requests]; exact h.requests, by rw [requests]; exact h.messages, by rw [assembly]; exact h.assembly, ?_, ?_⟩
  · rw [answers, List.length_append, List.length_singleton]
    omega
  · rw [answers, read]
    have before := h.answerRead
    cases e : s.answers with
    | nil =>
      have zero : s.answerRead = 0 := by simpa [e] using before
      simpa [zero] using answerLength_pos a
    | cons b rest => simpa [e] using before

/-- A message leaves and an answer joins. -/
theorem PortBounds.work {s t : State} (h : PortBounds s) (work : QueueWork s t) (assembly : t.assembly = s.assembly)
    (read : t.answerRead = s.answerRead) : PortBounds t := by
  have shorter : PortBounds { s with requests := t.requests } := by
    obtain same | ⟨m, e⟩ := work.requests
    · exact h.congr same rfl rfl rfl
    · have requests := h.requests
      have messages := h.messages
      rw [e] at requests messages
      exact ⟨(Nat.le_succ _).trans requests, fun w hw => messages w (List.mem_cons_of_mem m hw), h.assembly, h.answers, h.answerRead⟩
  obtain same | ⟨a, room, e⟩ := work.answers
  · exact shorter.congr rfl assembly same read
  · exact shorter.push a room e rfl assembly read

theorem announcedLength_bounds (w : Word) : 1 ≤ announcedLength w ∧ announcedLength w ≤ 16 := by
  rw [announcedLength_eq]
  split_ifs <;> omega

/-- The length of the message that a word joins has room for the word. -/
theorem PortBounds.joined {s : State} (h : PortBounds s) (w : Word) :
    s.assembly.words.length < joinedLength w s ∧ joinedLength w s ≤ 16 := by
  have announced := announcedLength_bounds w
  unfold joinedLength
  obtain none | some := h.assembly
  · simp [none, announced.2]
    omega
  · split_ifs with empty
    · rw [List.isEmpty_iff.mp empty]
      exact announced
    · exact some

theorem PortBounds.assembleWord {s : State} (h : PortBounds s) (w : Word) : PortBounds (assembleWord w s) := by
  obtain ⟨low, high⟩ := h.joined w
  by_cases short : (s.assembly.words ++ [w]).length < joinedLength w s
  · rw [assembleWord_incomplete rfl short]
    exact ⟨h.requests, h.messages, .inr ⟨short, high⟩, h.answers, h.answerRead⟩
  · have words : (s.assembly.words ++ [w]).length = joinedLength w s := by
      rw [List.length_append, List.length_singleton] at *
      omega
    rw [assembleWord_complete rfl words]
    by_cases room : s.requests.length < 16
    · rw [admitMessage_room (s := { s with assembly := { words := [], length := 0 } }) _ room]
      refine ⟨?_, fun m hm => ?_, .inl rfl, h.answers, h.answerRead⟩
      · rw [List.length_append, List.length_singleton]
        exact room
      · obtain old | new := List.mem_append.mp hm
        · exact h.messages m old
        · rw [List.mem_singleton.mp new, words]
          exact ⟨by omega, high⟩
    · rw [admitMessage_full (s := { s with assembly := { words := [], length := 0 } }) _ (by simpa using room)]
      exact ⟨h.requests, h.messages, .inl rfl, h.answers, h.answerRead⟩

theorem PortBounds.readAnswer {s : State} (h : PortBounds s) : PortBounds (readAnswer s) := by
  have advanced : PortBounds (advanceAnswerRead s) := by
    unfold advanceAnswerRead
    split
    · exact h
    · next a rest answers =>
      have full := h.answers
      rw [answers] at full
      split
      · next more => exact ⟨h.requests, h.messages, h.assembly, h.answers, by simpa [answers] using more⟩
      · have dropped : PortBounds { s with answers := rest, answerRead := 0 } := by
          refine ⟨h.requests, h.messages, h.assembly, (Nat.le_succ _).trans full, ?_⟩
          cases rest with
          | nil => exact Nat.zero_lt_one
          | cons b _ => exact answerLength_pos b
        refine ((placeHeld_pieces _).keeps (P := PortBounds) (fun u v op h => ?_) dropped)
        exact h.work op.queues (by rw [op.frame]) (by rw [op.frame])
  exact advanced.congr rfl rfl rfl rfl

theorem PortBounds.host {c : Instr} {s t : State} (h : PortBounds s) (host : c.agent = .host) (run : exec c s = .next t) :
    PortBounds t := by
  have high {f : State → State} (effect : PortBounds (f s)) (g : whileHigh f s = .next t) : PortBounds t :=
    whileHigh_rel (R := fun _ t => PortBounds t) h effect g
  cases c with
  | requestWordWrite w =>
    exact high (f := writeRequest w) (PortBounds.assembleWord (s := { s with rqData := none }) (h.congr rfl rfl rfl rfl) w) run
  | answerRead => exact high h.readAnswer run
  | answerWindowWrite access => exact high (f := quietEdge access) (h.congr rfl rfl rfl rfl) run
  | statusRead =>
    refine high ?_ run
    unfold readStatus
    split <;> exact h.congr rfl rfl rfl rfl
  | eventFlagClear w | assemblyAbandon w =>
    refine high (f := statusWrite w) ⟨h.requests, h.messages, ?_, h.answers, h.answerRead⟩ run
    unfold statusWrite
    dsimp only
    split
    · exact .inl rfl
    · exact h.assembly
  | enableWrite w => exact high (f := writeEnables w) (h.congr rfl rfl rfl rfl) run
  | _ => cases host

/-! ### The Lookup Port and the Lookup Engine -/

theorem lookupAnswerBytes_length (a : LookupAnswer) : (lookupAnswerBytes a).length = 18 := by
  cases a with
  | mk touch result frame line tag => cases result <;> simp [lookupAnswerBytes, twoBytes, resultBytes]

theorem LookupBounds.advance {s : State} (h : LookupBounds s) : LookupBounds (advanceLookupRead s) := by
  unfold advanceLookupRead
  split
  · exact h
  · next a rest answers =>
    have bound := h.lookupAnswers
    have room := h.lookupRoom
    rw [answers] at bound room
    split
    · next more =>
      rw [lookupAnswerBytes_length] at more
      exact ⟨h.points, h.pointBytes, h.lookupAnswers, h.lookupRoom, Nat.lt_succ_iff.mp more, fun e => by rw [answers] at e; cases e⟩
    · exact ⟨h.points, h.pointBytes, (Nat.le_succ _).trans bound, fun busy => (Nat.lt_succ_self _).trans (room busy),
        Nat.zero_le _, fun _ => rfl⟩

theorem LookupBounds.touch {c : Instr} {s t : State} (h : LookupBounds s) (touch : c.agent = .touchController)
    (run : exec c s = .next t) : LookupBounds t := by
  have high {f : State → State} (effect : LookupBounds (f s)) (g : whileHigh f s = .next t) : LookupBounds t :=
    whileHigh_rel (R := fun _ t => LookupBounds t) h effect g
  cases c with
  | pointByteWrite b =>
    refine high ?_ run
    unfold writePointByte completePoint
    dsimp only
    split
    · exact h
    split
    · next short => exact ⟨h.points, Nat.lt_succ_iff.mp short, h.lookupAnswers, h.lookupRoom, h.lookupRead⟩
    split
    · next room =>
      refine ⟨?_, Nat.zero_le _, h.lookupAnswers, h.lookupRoom, h.lookupRead⟩
      rw [List.length_append, List.length_singleton]
      exact room
    · exact ⟨h.points, Nat.zero_le _, h.lookupAnswers, h.lookupRoom, h.lookupRead⟩
  | lkSelFall level =>
    cases level <;> cases run
    · exact ⟨h.points, Nat.zero_le _, h.lookupAnswers, h.lookupRoom, h.lookupRead⟩
    · exact h.congr rfl rfl rfl rfl rfl
  | lookupAnswerRead =>
    refine high ?_ run
    unfold readLookupByte
    split
    · exact h.advance.congr rfl rfl rfl rfl rfl
    · exact h
  | _ => cases touch

theorem LookupBounds.lookup {c : Instr} {s t : State} (h : LookupBounds s) (engine : c.agent = .lookupEngine)
    (run : exec c s = .next t) : LookupBounds t := by
  have high {f : State → State} (effect : LookupBounds (f s)) (g : whileHigh f s = .next t) : LookupBounds t :=
    whileHigh_rel (R := fun _ t => LookupBounds t) h effect g
  cases c with
  | lookupTake =>
    refine high ?_ run
    unfold takePoint
    split
    · next p rest idle points =>
      have bound := h.points
      rw [points] at bound
      split
      · next room =>
        rw [updScanList_frame]
        exact ⟨(Nat.le_succ _).trans bound, h.pointBytes, h.lookupAnswers, fun _ => room, h.lookupRead⟩
      · exact h
    · exact h
  | lookupComplete =>
    refine high ?_ run
    unfold completeLookup
    split
    · exact h
    · next p n busy =>
      have room := h.lookupRoom (by rw [busy]; nofun)
      rw [updScanList_frame]
      refine ⟨h.points, h.pointBytes, ?_, fun e => absurd rfl e, h.lookupRead.1, fun e => by simp at e⟩
      rw [List.length_append, List.length_singleton]
      exact room
  | _ => cases engine

/-! ### The Span Queue and the line counter -/

theorem queueLine_length {l : Line} {s : State} (h : s.spanQueue.length ≤ 2) : (queueLine l s).spanQueue.length ≤ 2 := by
  have begun (u : State) : (beginLine u).spanQueue = u.spanQueue := by unfold beginLine; split <;> rfl
  have room : (if s.spanQueue.length < Config.spanQueueSize then s else discardOlder s).spanQueue.length ≤ 1 := by
    split
    · next short => exact Nat.lt_succ_iff.mp short
    · unfold discardOlder
      split
      · next empty => rw [empty]; exact Nat.zero_le _
      · next older rest queue =>
        rw [queue, List.length_cons] at h
        exact Nat.le_of_succ_le_succ h
  unfold queueLine
  dsimp only
  split
  · rw [begun, List.length_append, List.length_singleton]
    exact Nat.succ_le_succ room
  · rw [List.length_append, List.length_singleton]
    exact Nat.succ_le_succ room

theorem exec_span_length {c : Instr} {s t : State} (path : c.agent = .spanPath) (run : exec c s = .next t)
    (h : s.spanQueue.length ≤ 2) : t.spanQueue.length ≤ 2 := by
  have high {f : State → State} (effect : (f s).spanQueue.length ≤ 2) (g : whileHigh f s = .next t) : t.spanQueue.length ≤ 2 :=
    whileHigh_rel (R := fun _ t => t.spanQueue.length ≤ 2) h effect g
  have begun (u : State) : (beginLine u).spanQueue = u.spanQueue := by unfold beginLine; split <;> rfl
  cases c with
  | buildComplete =>
    refine high ?_ run
    unfold completeBuild
    split
    · exact h
    · refine queueLine_length ?_
      split <;> exact h
  | spanWordAccepted =>
    refine high ?_ run
    unfold acceptWord
    split
    · exact h
    · split
      · exact h
      · rw [begun, List.length_tail]
        exact (Nat.sub_le _ _).trans h
    · split
      · exact h
      · rw [begun]; exact h
  | _ => cases path

theorem exec_timing_line {c : Instr} {s t : State} (timing : c.agent = .timingInput) (run : exec c s = .next t)
    (h : s.lineCounter ≤ 4095) : t.lineCounter ≤ 4095 := by
  have high {f : State → State} (effect : (f s).lineCounter ≤ 4095) (g : whileHigh f s = .next t) : t.lineCounter ≤ 4095 :=
    whileHigh_rel (R := fun _ t => t.lineCounter ≤ 4095) h effect g
  cases c with
  | frameStart => exact high (f := countFrame) (Nat.zero_le _) run
  | lineStart =>
    refine high ?_ run
    rw [takeLine, abandonBuild_eq, promotionOfLine_eq, beginBuild_eq]
    exact Nat.min_le_right _ _
  | _ => cases timing

/-! ### Every step -/

theorem QueueBounds.congr {s t : State} (h : QueueBounds s) (port : PortBounds t) (lookup : LookupBounds t)
    (queue : t.spanQueue = s.spanQueue) (line : t.lineCounter = s.lineCounter) : QueueBounds t :=
  (queueBounds_iff t).mpr ⟨port, lookup, by rw [queue]; exact h.spanQueue, by rw [line]; exact h.lineCounter⟩

theorem Piece.queueBounds {s t : State} (piece : Piece s t) (h : QueueBounds s) : QueueBounds t := by
  obtain ⟨port, lookup, -⟩ := (queueBounds_iff s).mp h
  have frame := piece.frame
  exact h.congr (port.work piece.queues (by rw [frame]) (by rw [frame]))
    (lookup.congr (by rw [frame]) (by rw [frame]) (by rw [frame]) (by rw [frame]) (by rw [frame])) (by rw [frame]) (by rw [frame])

theorem QueueBounds.others {c : Instr} {s t : State} (h : QueueBounds s) (engine : c.agent ≠ .requestEngine)
    (reset : c.agent ≠ .resetInput) (run : exec c s = .next t) : QueueBounds t := by
  obtain ⟨port, lookup, queue, line⟩ := (queueBounds_iff s).mp h
  have samePort {u : State} (requests : u.requests = s.requests) (assembly : u.assembly = s.assembly)
      (answers : u.answers = s.answers) (read : u.answerRead = s.answerRead) : PortBounds u :=
    port.congr requests assembly answers read
  have sameLookup {u : State} (points : u.points = s.points) (bytes : u.pointBytes = s.pointBytes)
      (answers : u.lookupAnswers = s.lookupAnswers) (busy : u.lookup = s.lookup) (read : u.lookupRead = s.lookupRead) :
      LookupBounds u := lookup.congr points bytes answers busy read
  obtain ⟨agent, f⟩ | ⟨-, f⟩ | ⟨agent, f⟩ | ⟨-, f⟩ | ⟨agent, f⟩ | ⟨agent, f⟩ | ⟨agent, f⟩ := exec_block engine reset run
  · exact h.congr (port.host agent run)
      (sameLookup (by rw [f]) (by rw [f]) (by rw [f]) (by rw [f]) (by rw [f])) (by rw [f]) (by rw [f])
  · exact h.congr (samePort (by rw [f]) (by rw [f]) (by rw [f]) (by rw [f]))
      (sameLookup (by rw [f]) (by rw [f]) (by rw [f]) (by rw [f]) (by rw [f])) (by rw [f]) (by rw [f])
  · refine (queueBounds_iff t).mpr ⟨samePort (by rw [f]) (by rw [f]) (by rw [f]) (by rw [f]),
      sameLookup (by rw [f]) (by rw [f]) (by rw [f]) (by rw [f]) (by rw [f]), ?_, exec_timing_line agent run line⟩
    rw [f]
    exact queue
  · exact h.congr (samePort (by rw [f]) (by rw [f]) (by rw [f]) (by rw [f]))
      (sameLookup (by rw [f]) (by rw [f]) (by rw [f]) (by rw [f]) (by rw [f])) (by rw [f]) (by rw [f])
  · refine (queueBounds_iff t).mpr ⟨samePort (by rw [f]) (by rw [f]) (by rw [f]) (by rw [f]),
      sameLookup (by rw [f]) (by rw [f]) (by rw [f]) (by rw [f]) (by rw [f]), exec_span_length agent run queue, ?_⟩
    rw [f]
    exact line
  · exact h.congr (samePort (by rw [f]) (by rw [f]) (by rw [f]) (by rw [f])) (lookup.touch agent run) (by rw [f]) (by rw [f])
  · exact h.congr (samePort (by rw [f]) (by rw [f]) (by rw [f]) (by rw [f])) (lookup.lookup agent run) (by rw [f]) (by rw [f])

theorem queueBounds_reset : QueueBounds State.reset := by
  have port : PortBounds State.reset := ⟨Nat.zero_le _, nofun, .inl rfl, Nat.zero_le _, Nat.zero_lt_one⟩
  have lookup : LookupBounds State.reset :=
    ⟨Nat.zero_le _, Nat.zero_le _, Nat.zero_le _, fun busy => absurd rfl busy, Nat.zero_le _, fun _ => rfl⟩
  exact (queueBounds_iff _).mpr ⟨port, lookup, Nat.zero_le _, Nat.zero_le _⟩

/-- A change of the commands that wait, of the level of RESET or of the LK_SEL pin. -/
theorem QueueBounds.of_outside {s : State} (h : QueueBounds s) (pending : List Instr) (lkSel resetLow : Bool) :
    QueueBounds { s with pending := pending, lkSel := lkSel, resetLow := resetLow } := by
  obtain ⟨port, lookup, -⟩ := (queueBounds_iff s).mp h
  exact h.congr (port.congr rfl rfl rfl rfl) (lookup.congr rfl rfl rfl rfl rfl) rfl rfl

/-- Settles O49: each operation of the engine moves one message and one answer at most, and each block keeps its own queues. -/
theorem queueBoundsKept : Obligations.QueueBoundsKept := by
  intro s t h run
  exact step_keeps_of_blocks (P := QueueBounds) (fun _ _ op h => op.queueBounds h)
    (fun s l h => h.of_outside l s.lkSel s.resetLow) (fun _ _ _ engine reset run h => h.others engine reset run)
    (fun _ _ => queueBounds_reset.of_outside _ _ _) run h

end Sys2Proof.Machine
end

section
/-! PROOF. Every step keeps the pins of the scan lists, the Span Output Port within the items of the older line, and a build on
the SHOWING list (R113, R118, R127, R129, R142 to R145). -/

namespace Sys2Proof.Machine

/-! ### Scan lists -/

theorem scanList_congr {s t : State} (a : t.listA = s.listA) (b : t.listB = s.listB) (n : ListName) :
    t.scanList n = s.scanList n := by
  cases n
  · exact a
  · exact b

theorem scanList_updScanList (m n : ListName) (f : ScanList → ScanList) (s : State) :
    (s.updScanList n f).scanList m = if m = n then f (s.scanList m) else s.scanList m := by
  cases m <;> cases n <;> rfl

theorem eq_or_eq_otherList (m n : ListName) : m = n ∨ m = otherList n := by
  cases m <;> cases n <;> decide

theorem filling_ne_showing (s : State) : s.filling ≠ s.showing :=
  otherList_ne s.showing

/-- The FILLING list is being copied into, is READY or is not pinned: no lookup reads it (R113, R118). -/
def fillingFree (s : State) : Prop :=
  isCopying s = true ∨ s.snapState = .ready ∨ (s.scanList s.filling).pinCount = 0

/-- What an event of the Snapshot Unit does to the scan lists: only the FILLING list changes, and then only while no lookup reads
it, and the pins stay (R115 to R121). -/
structure SnapshotLists (s t : State) : Prop where
  pins : ∀ n, (t.scanList n).pinCount = (s.scanList n).pinCount
  lists : ∀ n, t.scanList n = s.scanList n ∨ (n = s.filling ∧ fillingFree s)
  target : isCopying t = true ∨ t.snapState = .ready → fillingFree s

theorem SnapshotLists.refl (s : State) : SnapshotLists s s :=
  ⟨fun _ => rfl, fun _ => .inl rfl, fun e => e.imp id .inl⟩

theorem exec_snapshot_lists {c : Instr} {s t : State} (unit : c.agent = .snapshotUnit) (h : exec c s = .next t) :
    SnapshotLists s t := by
  have high {f : State → State} (effect : SnapshotLists s (f s)) (g : whileHigh f s = .next t) : SnapshotLists s t :=
    whileHigh_rel (.refl s) effect g
  have upd (f : ScanList → ScanList) (pins : ∀ l, (f l).pinCount = l.pinCount) (n : ListName) :
      ((s.updScanList s.filling f).scanList n).pinCount = (s.scanList n).pinCount
        ∧ ((s.updScanList s.filling f).scanList n = s.scanList n ∨ n = s.filling) := by
    rw [scanList_updScanList]
    split_ifs with own
    · exact ⟨pins _, .inr own⟩
    · exact ⟨rfl, .inl rfl⟩
  have changed {u : State} (f : ScanList → ScanList) (pins : ∀ l, (f l).pinCount = l.pinCount)
      (lists : ∀ n, u.scanList n = (s.updScanList s.filling f).scanList n)
      (cause : fillingFree s) : SnapshotLists s u := by
    refine ⟨fun n => by rw [lists]; exact (upd f pins n).1, fun n => ?_, fun _ => cause⟩
    rw [lists]
    exact (upd f pins n).2.imp id fun own => ⟨own, cause⟩
  have waiting {u : State} (lists : ∀ n, u.scanList n = s.scanList n) (state : u.snapState = .waiting) :
      SnapshotLists s u :=
    ⟨fun n => by rw [lists], fun n => .inl (lists n), fun e => by simp [isCopying, state] at e⟩
  cases c with
  | snapshotFrameStart =>
    refine high ?_ h
    unfold advanceSnapshot
    dsimp only
    split
    · exact waiting (fun n => by cases n <;> rfl) rfl
    · exact waiting (fun n => by cases n <;> rfl) rfl
    · next latch state =>
      exact changed dropEntries (fun _ => rfl) (fun n => by cases n <;> cases s.filling <;> rfl) (.inl (by simp [isCopying, state]))
    · next state =>
      exact changed dropEntries (fun _ => rfl) (fun n => by cases n <;> cases s.filling <;> rfl) (.inr (.inl state))
  | copyStart =>
    refine high ?_ h
    unfold startCopy
    split
    · next may =>
      simp only [copyMayStart, Bool.and_eq_true, decide_eq_true_eq] at may
      exact changed (fun l => { l with tag := s.snapFrame, panel := s.panel, entries := [] }) (fun _ => rfl)
        (fun n => by cases n <;> rfl) (.inr (.inr may.2))
    · exact .refl s
  | copyComplete =>
    refine high ?_ h
    unfold completeCopy
    split
    · next latch state =>
      exact changed (fun l => { l with entries := copyEntries latch.visible s }) (fun _ => rfl)
        (fun n => by cases n <;> rfl) (.inl (by simp [isCopying, state]))
    · exact .refl s
  | _ => cases unit

/-! ### Pins -/

/-- The fields that `PinsHold` reads, the target being copied into, or READY, only if it was before. -/
theorem PinsHold.congr {s t : State} (h : PinsHold s) (pins : ∀ n, (t.scanList n).pinCount = (s.scanList n).pinCount)
    (lookup : t.lookup = s.lookup)
    (target : (isCopying t = true ∨ t.snapState = .ready) → (s.scanList t.filling).pinCount = 0) : PinsHold t := by
  refine ⟨fun e => ?_, fun p n e => ?_, fun e => ?_⟩
  · rw [lookup] at e
    exact ⟨(pins .a).trans (h.none e).1, (pins .b).trans (h.none e).2⟩
  · rw [lookup] at e
    rw [pins, pins]
    exact h.one p n e
  · rw [pins]
    exact target e

theorem PinsHold.of_same {s t : State} (h : PinsHold s) (a : t.listA = s.listA) (b : t.listB = s.listB)
    (lookup : t.lookup = s.lookup) (snap : t.snapState = s.snapState) (showing : t.showing = s.showing) : PinsHold t := by
  refine h.congr (fun n => by rw [scanList_congr a b]) lookup fun e => ?_
  rw [isCopying_congr snap, snap] at e
  have filling : t.filling = s.filling := by unfold State.filling; rw [showing]
  rw [filling]
  exact h.target e

theorem PinsHold.timing {c : Instr} {s t : State} (h : PinsHold s) (timing : c.agent = .timingInput)
    (run : exec c s = .next t) : PinsHold t := by
  have high {f : State → State} (effect : PinsHold (f s)) (g : whileHigh f s = .next t) : PinsHold t :=
    whileHigh_rel (R := fun _ t => PinsHold t) h effect g
  cases c with
  | frameStart => exact high (f := countFrame) (h.of_same rfl rfl rfl rfl rfl) run
  | lineStart =>
    refine high ?_ run
    rw [takeLine, abandonBuild_eq, promotionOfLine_eq, beginBuild_eq]
    refine h.congr (fun n => by cases n <;> rfl) rfl fun e => ?_
    by_cases promoted : s.lineCounter = 0 ∧ s.snapState = .ready
    · simp [isCopying, countLine, promoted] at e
    · have target := h.target (by simpa [isCopying, countLine, promoted] using e)
      simpa [State.filling, countLine, promoted] using target
  | _ => cases timing

theorem PinsHold.snapshot {c : Instr} {s t : State} (h : PinsHold s) (unit : c.agent = .snapshotUnit)
    (run : exec c s = .next t) : PinsHold t := by
  have f := exec_snapshotFrame unit run
  obtain ⟨pins, -, target⟩ := exec_snapshot_lists unit run
  have filling : t.filling = s.filling := by unfold State.filling; rw [f]
  refine h.congr pins (by rw [f]) fun e => ?_
  rw [filling]
  obtain copying | ready | free := target e
  · exact h.target (.inl copying)
  · exact h.target (.inr ready)
  · exact free

theorem PinsHold.lookup {c : Instr} {s t : State} (h : PinsHold s) (engine : c.agent = .lookupEngine)
    (run : exec c s = .next t) : PinsHold t := by
  have high {f : State → State} (effect : PinsHold (f s)) (g : whileHigh f s = .next t) : PinsHold t :=
    whileHigh_rel (R := fun _ t => PinsHold t) h effect g
  cases c with
  | lookupTake =>
    refine high ?_ run
    unfold takePoint
    split
    · next p rest idle points =>
      split
      · obtain ⟨a, b⟩ := h.none idle
        have zero (n : ListName) : (s.scanList n).pinCount = 0 := by cases n; exacts [a, b]
        have lists (n : ListName) : (({ s.updScanList s.showing (fun l => { l with pinCount := 1 }) with
            points := rest, lookup := .looking p s.showing } : State).scanList n).pinCount =
              if n = s.showing then 1 else 0 := by
          have upd := scanList_updScanList n s.showing (fun l => { l with pinCount := 1 }) s
          refine (congrArg ScanList.pinCount ((scanList_congr rfl rfl n).trans upd)).trans ?_
          split_ifs
          · rfl
          · exact zero n
        refine ⟨nofun, fun q n e => ?_, fun _ => ?_⟩
        · cases e
          exact ⟨(lists _).trans (if_pos rfl), (lists _).trans (if_neg (otherList_ne _))⟩
        · refine (lists _).trans (if_neg ?_)
          unfold State.filling
          rw [updScanList_frame]
          exact otherList_ne _
      · exact h
    · exact h
  | lookupComplete =>
    refine high ?_ run
    unfold completeLookup
    split
    · exact h
    · next p n busy =>
      obtain ⟨-, other⟩ := h.one p n busy
      have zero (m : ListName) : ((s.updScanList n fun l => { l with pinCount := 0 }).scanList m).pinCount = 0 := by
        rw [scanList_updScanList]
        split_ifs with own
        · rfl
        · rw [(eq_or_eq_otherList m n).resolve_left own]
          exact other
      exact ⟨fun _ => ⟨zero .a, zero .b⟩, nofun, fun _ => zero _⟩
  | _ => cases engine

theorem PinsHold.others {c : Instr} {s t : State} (h : PinsHold s) (engine : c.agent ≠ .requestEngine)
    (reset : c.agent ≠ .resetInput) (run : exec c s = .next t) : PinsHold t := by
  obtain ⟨-, f⟩ | ⟨-, f⟩ | ⟨agent, -⟩ | ⟨agent, -⟩ | ⟨-, f⟩ | ⟨-, f⟩ | ⟨agent, -⟩ := exec_block engine reset run
  · exact h.of_same (by rw [f]) (by rw [f]) (by rw [f]) (by rw [f]) (by rw [f])
  · exact h.of_same (by rw [f]) (by rw [f]) (by rw [f]) (by rw [f]) (by rw [f])
  · exact h.timing agent run
  · exact h.snapshot agent run
  · exact h.of_same (by rw [f]) (by rw [f]) (by rw [f]) (by rw [f]) (by rw [f])
  · exact h.of_same (by rw [f]) (by rw [f]) (by rw [f]) (by rw [f]) (by rw [f])
  · exact h.lookup agent run

theorem Piece.pins {s t : State} (piece : Piece s t) (h : PinsHold s) : PinsHold t := by
  have f := piece.frame
  exact h.of_same (by rw [f]) (by rw [f]) (by rw [f]) (by rw [f]) (by rw [f])

theorem pinsHold_reset : PinsHold State.reset := by
  have zero (n : ListName) : (State.reset.scanList n).pinCount = 0 := by cases n <;> rfl
  exact ⟨fun _ => ⟨zero .a, zero .b⟩, fun _ _ e => (by cases e), fun _ => zero _⟩

/-- A lookup in hand reads a list that neither the Snapshot Unit writes nor anything else changes but its pins (R113). -/
theorem exec_pinned {c : Instr} {s t : State} {p : Point} {n : ListName} (h : PinsHold s) (busy : s.lookup = .looking p n)
    (reset : ∀ level, c ≠ .deviceReset level) (run : exec c s = .next t) :
    (t.scanList n).tag = (s.scanList n).tag ∧ (t.scanList n).panel = (s.scanList n).panel
      ∧ (t.scanList n).entries = (s.scanList n).entries := by
  have same (e : t.scanList n = s.scanList n) : (t.scanList n).tag = (s.scanList n).tag
      ∧ (t.scanList n).panel = (s.scanList n).panel ∧ (t.scanList n).entries = (s.scanList n).entries := by
    rw [e]; exact ⟨rfl, rfl, rfl⟩
  by_cases engine : c.agent = .requestEngine
  · have f := (exec_pieces engine run).frame
    exact same (scanList_congr (by rw [f]) (by rw [f]) n)
  have noReset : c.agent ≠ .resetInput := by
    intro e
    cases c with
    | deviceReset level => exact reset level rfl
    | _ => cases e
  obtain ⟨-, f⟩ | ⟨-, f⟩ | ⟨-, f⟩ | ⟨agent, -⟩ | ⟨-, f⟩ | ⟨-, f⟩ | ⟨agent, -⟩ := exec_block engine noReset run
  · exact same (scanList_congr (by rw [f]) (by rw [f]) n)
  · exact same (scanList_congr (by rw [f]) (by rw [f]) n)
  · exact same (scanList_congr (by rw [f]) (by rw [f]) n)
  · obtain ⟨-, lists, -⟩ := exec_snapshot_lists agent run
    obtain e | ⟨own, cause⟩ := lists n
    · exact same e
    have pinned := (h.one p n busy).1
    have free : (s.scanList s.filling).pinCount = 0 := by
      obtain copying | ready | free := cause
      · exact h.target (.inl copying)
      · exact h.target (.inr ready)
      · exact free
    rw [← own, pinned] at free
    cases free
  · exact same (scanList_congr (by rw [f]) (by rw [f]) n)
  · exact same (scanList_congr (by rw [f]) (by rw [f]) n)
  have high {f : State → State} {P : State → Prop} (same : P s) (effect : P (f s)) (g : whileHigh f s = .next t) : P t :=
    whileHigh_rel (R := fun _ t => P t) same effect g
  cases c with
  | lookupTake =>
    have nothing : takePoint s = s := by simp [takePoint, busy]
    exact same (high (P := fun t => t.scanList n = s.scanList n) rfl (by rw [nothing]) run)
  | lookupComplete =>
    refine high (P := fun t => (t.scanList n).tag = (s.scanList n).tag ∧ (t.scanList n).panel = (s.scanList n).panel
      ∧ (t.scanList n).entries = (s.scanList n).entries) ⟨rfl, rfl, rfl⟩ ?_ run
    unfold completeLookup
    rw [busy]
    cases n <;> exact ⟨rfl, rfl, rfl⟩
  | _ => cases agent

/-- Settles O53: the Lookup Engine alone changes the pins, and the Snapshot Unit writes an unpinned list alone. -/
theorem pinsKept : Obligations.PinsKept := by
  refine ⟨fun s t h run => ?_, fun c s t p n h busy reset run => exec_pinned h busy reset run⟩
  exact step_keeps_of_blocks (P := PinsHold) (fun _ _ op h => op.pins h) (fun s l h => h.of_same rfl rfl rfl rfl rfl)
    (fun _ _ _ engine reset run h => h.others engine reset run)
    (fun _ _ => pinsHold_reset.of_same rfl rfl rfl rfl rfl) run h

/-! ### The Span Output Port -/

theorem itemWords_pos (it : SpanItem) : 0 < (itemWords it).length := by
  cases it with
  | lineHead n tag count overflow => exact Nat.zero_lt_two
  | span sp => cases h : sp.content <;> simp [itemWords, h]
  | underlay u => cases u <;> simp [itemWords]
  | lineAbort n tag => exact Nat.zero_lt_two

theorem portHolds_congr {s t : State} (h : PortHolds s) (port : t.spanPort = s.spanPort) (queue : t.spanQueue = s.spanQueue) :
    PortHolds t := by
  unfold PortHolds at *
  rwa [port, queue]

/-- A port that begins is at the LINE_HEAD of the older line, or IDLE with an empty queue (R143). -/
theorem portHolds_beginLine (s : State) : PortHolds (beginLine s) := by
  unfold beginLine
  split
  · next empty => exact empty
  · next l rest queue => exact ⟨itemWords_pos _, l, rest, [], queue, rfl⟩

/-- The place after an accepted word: the next word of the item in hand, or the first of the next item. -/
theorem nextPlace_eq_some {p q : SpanPlace} (h : nextPlace p = some q) :
    (q = { p with sent := p.sent + 1 } ∧ p.sent + 1 < (itemWords p.item).length)
      ∨ p.later = q.item :: q.later ∧ q.sent = 0 := by
  unfold nextPlace at h
  split_ifs at h with more
  · cases h
    exact .inl ⟨rfl, more⟩
  · split at h
    · cases h
    · next later =>
      cases h
      exact .inr ⟨later, rfl⟩

theorem nextPlace_sent {p q : SpanPlace} (h : nextPlace p = some q) : q.sent < (itemWords q.item).length := by
  obtain ⟨rfl, more⟩ | ⟨-, zero⟩ := nextPlace_eq_some h
  · exact more
  · rw [zero]; exact itemWords_pos _

theorem portHolds_acceptWord {s : State} (h : PortHolds s) : PortHolds (acceptWord s) := by
  unfold acceptWord
  split
  · exact h
  · next p port =>
    unfold PortHolds at h
    rw [port] at h
    obtain ⟨-, l, rest, before, queue, items⟩ := h
    split
    · next q next =>
      refine ⟨nextPlace_sent next, l, rest, ?_⟩
      obtain ⟨rfl, -⟩ | ⟨later, -⟩ := nextPlace_eq_some next
      · exact ⟨before, queue, items⟩
      · refine ⟨before ++ [p.item], queue, ?_⟩
        rw [List.append_assoc, List.singleton_append, ← later]
        exact items
    · exact portHolds_beginLine _
  · next p port =>
    unfold PortHolds at h
    rw [port] at h
    obtain ⟨-, later⟩ := h
    split
    · next q next =>
      refine ⟨nextPlace_sent next, ?_⟩
      obtain ⟨rfl, -⟩ | ⟨e, -⟩ := nextPlace_eq_some next
      · exact later
      · obtain none | ⟨n, tag, one⟩ := later
        · rw [none] at e; cases e
        · rw [one] at e
          exact .inl (List.cons.inj e).2.symm
    · exact portHolds_beginLine s

/-- The state after the room for a line is made: the port is still within its items, or aborts them (R142, R145). -/
theorem portHolds_discardOlder {s : State} (h : PortHolds s) : PortHolds (discardOlder s) := by
  unfold discardOlder
  split
  · exact h
  · next l rest queue =>
    unfold PortHolds at h ⊢
    cases port : s.spanPort with
    | idle => rw [port] at h; rw [h] at queue; cases queue
    | sending p =>
      rw [port] at h
      exact ⟨h.1, .inr ⟨l.number, l.tag, rfl⟩⟩
    | aborting p =>
      rw [port] at h
      exact h

theorem portHolds_queueLine {s : State} (l : Line) (h : PortHolds s) : PortHolds (queueLine l s) := by
  have room : PortHolds (if s.spanQueue.length < Config.spanQueueSize then s else discardOlder s) := by
    split
    · exact h
    · exact portHolds_discardOlder h
  unfold queueLine
  dsimp only
  split
  · exact portHolds_beginLine _
  next busy =>
  unfold PortHolds at room ⊢
  cases port : (if s.spanQueue.length < Config.spanQueueSize then s else discardOlder s).spanPort with
  | idle => exact absurd port busy
  | sending p =>
    simp only [port] at room ⊢
    obtain ⟨sent, older, rest, before, queue, items⟩ := room
    exact ⟨sent, older, rest ++ [l], before, by rw [queue]; rfl, items⟩
  | aborting p =>
    simp only [port] at room ⊢
    exact room

theorem portHolds_span {c : Instr} {s t : State} (h : PortHolds s) (path : c.agent = .spanPath) (run : exec c s = .next t) :
    PortHolds t := by
  have high {f : State → State} (effect : PortHolds (f s)) (g : whileHigh f s = .next t) : PortHolds t :=
    whileHigh_rel (R := fun _ t => PortHolds t) h effect g
  cases c with
  | buildComplete =>
    refine high ?_ run
    unfold completeBuild
    split
    · exact h
    · refine portHolds_queueLine _ ?_
      split <;> exact portHolds_congr h rfl rfl
  | spanWordAccepted => exact high (portHolds_acceptWord h) run
  | _ => cases path

theorem portHolds_others {c : Instr} {s t : State} (h : PortHolds s) (engine : c.agent ≠ .requestEngine)
    (reset : c.agent ≠ .resetInput) (run : exec c s = .next t) : PortHolds t := by
  obtain ⟨-, f⟩ | ⟨-, f⟩ | ⟨-, f⟩ | ⟨-, f⟩ | ⟨agent, -⟩ | ⟨-, f⟩ | ⟨-, f⟩ := exec_block engine reset run
  case span => exact portHolds_span h agent run
  all_goals exact portHolds_congr h (by rw [f]) (by rw [f])

theorem portHolds_reset : PortHolds State.reset := rfl

theorem Piece.portHolds {s t : State} (piece : Piece s t) (h : PortHolds s) : PortHolds t := by
  have f := piece.frame
  exact portHolds_congr h (by rw [f]) (by rw [f])

/-! ### The Span Builder -/

/-- The fields that `BuilderHolds` reads: the SHOWING list may get other contents, but keeps its panel. -/
theorem builderHolds_congr {s t : State} (h : BuilderHolds s) (builder : t.builder = s.builder) (showing : t.showing = s.showing)
    (panel : (t.scanList s.showing).panel = (s.scanList s.showing).panel) : BuilderHolds t := by
  intro n list e
  rw [builder] at e
  obtain ⟨rfl, produced⟩ := h n list e
  refine ⟨showing.symm, ?_⟩
  unfold lineProduced at *
  rwa [panel]

theorem builderHolds_of_same {s t : State} (h : BuilderHolds s) (builder : t.builder = s.builder) (showing : t.showing = s.showing)
    (a : t.listA = s.listA) (b : t.listB = s.listB) : BuilderHolds t :=
  builderHolds_congr h builder showing (by rw [scanList_congr a b])

theorem builderHolds_idle {s : State} (idle : s.builder = .idle) : BuilderHolds s := by
  intro n list e
  rw [idle] at e
  cases e

theorem builderHolds_beginBuild (n : Nat) (s : State) : BuilderHolds (beginBuild n s) := by
  intro m list e
  have built : (if lineProduced (s.scanList s.showing) n then Builder.building n s.showing else .idle) = .building m list := e
  split_ifs at built with produced
  · cases built
    exact ⟨rfl, produced⟩

theorem builderHolds_timing {c : Instr} {s t : State} (h : BuilderHolds s) (timing : c.agent = .timingInput)
    (run : exec c s = .next t) : BuilderHolds t := by
  have high {f : State → State} (effect : BuilderHolds (f s)) (g : whileHigh f s = .next t) : BuilderHolds t :=
    whileHigh_rel (R := fun _ t => BuilderHolds t) h effect g
  cases c with
  | frameStart => exact high (f := countFrame) (builderHolds_of_same h rfl rfl rfl rfl) run
  | lineStart => exact high (f := takeLine) (builderHolds_beginBuild _ _) run
  | _ => cases timing

theorem queueLine_builder (l : Line) (s : State) : (queueLine l s).builder = s.builder := by
  have begun (u : State) : (beginLine u).builder = u.builder := by unfold beginLine; split <;> rfl
  have room : (if s.spanQueue.length < Config.spanQueueSize then s else discardOlder s).builder = s.builder := by
    split
    · rfl
    · unfold discardOlder; split <;> rfl
  unfold queueLine
  dsimp only
  split
  · rw [begun]; exact room
  · exact room

theorem builderHolds_span {c : Instr} {s t : State} (h : BuilderHolds s) (path : c.agent = .spanPath)
    (run : exec c s = .next t) : BuilderHolds t := by
  have f := exec_spanFrame path run
  have begun (u : State) : (beginLine u).builder = u.builder := by unfold beginLine; split <;> rfl
  have high {f : State → State} {P : State → Prop} (same : P s) (effect : P (f s)) (g : whileHigh f s = .next t) : P t :=
    whileHigh_rel (R := fun _ t => P t) same effect g
  have builder : t.builder = s.builder ∨ t.builder = .idle := by
    cases c with
    | buildComplete =>
      refine high (P := fun t => t.builder = s.builder ∨ t.builder = .idle) (.inl rfl) ?_ run
      unfold completeBuild
      split
      · exact .inl rfl
      · refine .inr ((queueLine_builder _ _).trans ?_)
        split <;> rfl
    | spanWordAccepted =>
      refine high (P := fun t => t.builder = s.builder ∨ t.builder = .idle) (.inl rfl) (.inl ?_) run
      unfold acceptWord
      split
      · rfl
      · split
        · rfl
        · exact begun _
      · split
        · rfl
        · exact begun s
    | _ => cases path
  obtain same | idle := builder
  · exact builderHolds_of_same h same (by rw [f]) (by rw [f]) (by rw [f])
  · exact builderHolds_idle idle

theorem builderHolds_others {c : Instr} {s t : State} (h : BuilderHolds s) (engine : c.agent ≠ .requestEngine)
    (reset : c.agent ≠ .resetInput) (run : exec c s = .next t) : BuilderHolds t := by
  obtain ⟨-, f⟩ | ⟨-, f⟩ | ⟨agent, -⟩ | ⟨agent, f⟩ | ⟨agent, -⟩ | ⟨-, f⟩ | ⟨agent, f⟩ := exec_block engine reset run
  case timing => exact builderHolds_timing h agent run
  case snapshot =>
    obtain ⟨-, lists, -⟩ := exec_snapshot_lists agent run
    refine builderHolds_congr h (by rw [f]) (by rw [f]) ?_
    obtain e | ⟨own, -⟩ := lists s.showing
    · rw [e]
    · exact absurd own.symm (filling_ne_showing s)
  case span => exact builderHolds_span h agent run
  case lookup =>
    refine builderHolds_congr h (by rw [f]) (by rw [f]) ?_
    have high {f : State → State} {P : State → Prop} (same : P s) (effect : P (f s)) (g : whileHigh f s = .next t) : P t :=
      whileHigh_rel (R := fun _ t => P t) same effect g
    have pin (n m : ListName) (k : Nat) :
        ((s.updScanList n fun l => { l with pinCount := k }).scanList m).panel = (s.scanList m).panel := by
      rw [scanList_updScanList]; split <;> rfl
    cases c with
    | lookupTake =>
      refine high (P := fun t => (t.scanList s.showing).panel = (s.scanList s.showing).panel) rfl ?_ run
      unfold takePoint
      split
      · split
        · exact pin s.showing s.showing 1
        · rfl
      · rfl
    | lookupComplete =>
      refine high (P := fun t => (t.scanList s.showing).panel = (s.scanList s.showing).panel) rfl ?_ run
      unfold completeLookup
      split
      · rfl
      · exact pin _ s.showing 0
    | _ => cases agent
  all_goals exact builderHolds_of_same h (by rw [f]) (by rw [f]) (by rw [f]) (by rw [f])

theorem builderHolds_reset : BuilderHolds State.reset := builderHolds_idle rfl

theorem Piece.builderHolds {s t : State} (piece : Piece s t) (h : BuilderHolds s) : BuilderHolds t := by
  have f := piece.frame
  exact builderHolds_of_same h (by rw [f]) (by rw [f]) (by rw [f]) (by rw [f])

/-- Settles O60: the span path's two events keep the port, and a LINE_START begins its build on the list it finds SHOWING. -/
theorem spanPathKept : Obligations.SpanPathKept := by
  constructor
  · intro s t h run
    exact step_keeps_of_blocks (P := PortHolds) (fun _ _ op h => op.portHolds h) (fun _ _ h => portHolds_congr h rfl rfl)
      (fun _ _ _ engine reset run h => portHolds_others h engine reset run) (fun _ _ => portHolds_congr portHolds_reset rfl rfl) run h
  · intro s t h run
    exact step_keeps_of_blocks (P := BuilderHolds) (fun _ _ op h => op.builderHolds h)
      (fun _ _ h => builderHolds_of_same h rfl rfl rfl rfl) (fun _ _ _ engine reset run h => builderHolds_others h engine reset run)
      (fun _ _ => builderHolds_of_same builderHolds_reset rfl rfl rfl rfl) run h

end Sys2Proof.Machine
end

section
/-! PROOF. Every step keeps each part of each record valid for the panel and its band, and what the scan lists hold (R3 to R6,
R108, R110, R111, R119 to R121, R135). -/

namespace Sys2Proof.Machine

/-! ### Parts -/

/-- Every part of a record is valid for a panel and the record's band. -/
structure RecordValid (p : Panel) (r : Region) : Prop where
  reserved : ∀ g, r = .reserved g → partValid p g.band g.staged
  committed : ∀ g, r = .live g → partValid p g.band g.committed
  staged : ∀ g st, r = .live g → g.staged = some st → partValid p g.band st.part

theorem RecordValid.free (p : Panel) : RecordValid p .free :=
  ⟨fun _ => Region.noConfusion, fun _ => Region.noConfusion, fun _ _ => Region.noConfusion⟩

theorem RecordValid.of_reserved {p : Panel} {g : ReservedRegion} (h : partValid p g.band g.staged) : RecordValid p (.reserved g) :=
  ⟨fun q e => by cases e; exact h, fun _ => Region.noConfusion, fun _ _ => Region.noConfusion⟩

theorem RecordValid.of_live {p : Panel} {g : LiveRegion} (committed : partValid p g.band g.committed)
    (staged : ∀ st, g.staged = some st → partValid p g.band st.part) : RecordValid p (.live g) :=
  ⟨fun _ => Region.noConfusion, fun q e => by cases e; exact committed, fun q st e s => by cases e; exact staged st s⟩

theorem partsValid_iff (s : State) : PartsValid s ↔ ∀ i, RecordValid s.panel (s.region i) := by
  refine forall_congr' fun i => ?_
  cases s.region i with
  | free => exact ⟨fun _ => .free _, fun _ => True.intro⟩
  | reserved g => exact ⟨fun h => .of_reserved h, fun h => h.reserved g rfl⟩
  | live g => exact ⟨fun h => .of_live h.1 h.2, fun h => ⟨h.committed g rfl, fun st => h.staged g st rfl⟩⟩

theorem RecordValid.closeUpOrder {p : Panel} {s : State} {ids : List RegionId} {r : Region} (h : RecordValid p r) :
    RecordValid p (closeUpOrder s ids r) := by
  cases r with
  | reserved g => exact .of_reserved (h.reserved g rfl)
  | _ => exact h

theorem RecordValid.dropStaged {p : Panel} {k : ClientId} {r : Region} (h : RecordValid p r) :
    RecordValid p (dropStaged k r) := by
  cases r with
  | live g =>
    simp only [Machine.dropStaged]
    split_ifs
    · exact .of_live (h.committed g rfl) nofun
    · exact h
  | _ => exact h

/-- What a staged part of a LIVE record starts from is valid (R9). -/
theorem RecordValid.stagedPart {p : Panel} {g : LiveRegion} (h : RecordValid p (.live g)) :
    partValid p g.band (g.staged.getD { part := g.committed, retire := false }).part := by
  cases e : g.staged with
  | none => exact h.committed g rfl
  | some st => exact h.staged g st rfl e

theorem RecordValid.editRegion {p : Panel} {b : Band} {g : Groups} {r : Region} (h : RecordValid p r)
    (band : regionBand r = some b) (groups : g.failing p b = none) : RecordValid p (editRegion g r) := by
  cases r with
  | free => exact h
  | reserved q =>
    cases band
    exact .of_reserved (applyTo_valid groups (h.reserved q rfl))
  | live q =>
    cases band
    refine .of_live (h.committed q rfl) fun st e => ?_
    cases e
    exact applyTo_valid groups h.stagedPart

theorem RecordValid.markRetire {p : Panel} {r : Region} (h : RecordValid p r) : RecordValid p (markRetire r) := by
  cases r with
  | live q =>
    refine .of_live (h.committed q rfl) fun st e => ?_
    cases e
    exact RecordValid.stagedPart (g := q) h
  | _ => exact h

theorem RecordValid.publishedRecord {p : Panel} {k : ClientId} {eff : Frame} {moved : Bool} {r : Region} (h : RecordValid p r) :
    RecordValid p (publishedRecord k eff moved r) := by
  obtain e | ⟨e, -⟩ | ⟨q, rfl, -, e⟩ | ⟨q, st, rfl, -, staged, -, e⟩ | ⟨q, f, rfl, -, e⟩ :=
    publishedRecord_cases k eff moved r <;> rw [e]
  · exact .free p
  · exact h
  · exact .of_live (h.reserved q rfl) nofun
  · exact .of_live (h.staged q st rfl staged) nofun
  · exact .of_live (h.committed q rfl) fun st => h.staged q st rfl

theorem Staging.recordsValid {s t : State} (h : Staging s t) (valid : ∀ i, RecordValid s.panel (s.region i)) (i : RegionId) :
    RecordValid t.panel (t.region i) := by
  cases h with
  | keep regions bands panel => rw [region_congr regions, panel]; exact valid i
  | panel unused regions bands _ => rw [region_congr regions, unused]; exact .free _
  | @reserve _ m k j checks =>
    obtain ⟨-, -, -, -, part⟩ := createChecks_ok checks
    have panel : (reserveRecord j k (createPart m) s).panel = s.panel := by simp [reserveRecord]
    rw [panel, reserveRecord, region_updClient, region_setRegion]
    split_ifs
    · exact .of_reserved part
    · exact valid i
  | @edit _ m k j checks =>
    obtain ⟨-, -, -, b, band, groups⟩ := editChecks_ok checks
    rw [State.setRegion_panel, region_setRegion]
    split_ifs
    · exact (valid j).editRegion band groups
    · exact valid i
  | mark _ j =>
    rw [State.setRegion_panel, region_setRegion]
    split_ifs
    · exact (valid j).markRetire
    · exact valid i
  | release reserved =>
    rw [freeRecords_panel, region_freeRecords]
    split_ifs
    · exact .free _
    · exact (valid i).closeUpOrder
  | discard k =>
    rw [discardStaging_panel, region_discardStaging]
    split_ifs
    · exact .free _
    · exact (valid i).closeUpOrder.dropStaged

theorem Commit.recordsValid {s t : State} (h : Commit s t) (valid : ∀ i, RecordValid s.panel (s.region i)) (i : RegionId) :
    RecordValid t.panel (t.region i) := by
  cases h with
  | @publish k _ apart =>
    have panel : (publishSteps k s).1.panel = s.panel := by rw [publishSteps_tables k s]
    rw [region_publishSteps, panel]
    exact (valid i).publishedRecord
  | close k =>
    have panel : (applyClose k s).panel = s.panel := by rw [applyClose_tables k s]
    rw [region_applyClose, panel]
    split_ifs
    · exact .free _
    · exact valid i
  | clear => rw [region_applyClear]; exact .free _

theorem partsValid_of_free {s : State} (free : ∀ i, s.region i = .free) : PartsValid s :=
  (partsValid_iff s).mpr fun i => by rw [free]; exact .free _

theorem partsValid_step {s t : State} (valid : PartsValid s) (h : step s = .next t) : PartsValid t := by
  rw [partsValid_iff] at *
  refine step_keeps_of_effects (P := fun u => ∀ i, RecordValid u.panel (u.region i)) (fun u regions _ _ i => ?_)
    (fun _ _ stage => stage.recordsValid) (fun _ _ commit => commit.recordsValid) valid h
  rw [region_congr regions, region_reset]
  exact .free _

/-- Every command but a reset leaves the panel configuration one that SET_PANEL accepts (R107, R108). -/
theorem exec_panel_valid {c : Instr} {s t : State} (reset : ∀ level, c ≠ .deviceReset level) (h : exec c s = .next t)
    (valid : s.panel.valid = true) : t.panel.valid = true := by
  refine (exec_work reset h).keeps (P := fun u => u.panel.valid = true) (fun u v stage p => ?_) (fun _ u v commit p => ?_) valid
  · cases stage with
    | keep regions bands panel => rw [panel]; exact p
    | panel unused regions bands accepted => exact accepted
    | reserve checks => simpa [reserveRecord] using p
    | edit checks => simpa using p
    | mark i => simpa using p
    | release reserved => simpa using p
    | discard k => simpa using p
  · cases commit with
    | @publish k _ apart => rw [publishSteps_tables k u]; exact p
    | close k => rw [applyClose_tables k u]; exact p
    | clear => simpa using p

/-! ### The walk of a copy -/

/-- The records in the order of the walk: the GUARDED list, then the ELEVATED list, then the ORDINARY list (R40, R120). -/
def stackingWalk (s : State) : List RegionId :=
  s.bands.guarded ++ s.bands.elevated ++ s.bands.ordinary

/-- No region comes twice, and none of a higher band after one of a lower. -/
theorem stackingWalk_pairwise {s : State} (lists : BandListsHold s) :
    (stackingWalk s).Pairwise fun i j => i ≠ j ∧ ∀ b c, regionBand (s.region i) = some b → regionBand (s.region j) = some c →
      bandNumber b ≤ bandNumber c := by
  have band {b : Band} {i : RegionId} (h : i ∈ s.bands.get b) : regionBand (s.region i) = some b :=
    ((lists b).2 i |>.mp h).2
  have within (b : Band) : (s.bands.get b).Pairwise fun i j => i ≠ j ∧ ∀ b c, regionBand (s.region i) = some b →
      regionBand (s.region j) = some c → bandNumber b ≤ bandNumber c := by
    refine ((lists b).1).imp_of_mem fun hi hj ne => ⟨ne, fun c d hc hd => ?_⟩
    rw [band hi] at hc
    rw [band hj] at hd
    cases hc
    cases hd
    exact le_rfl
  have between {a b : Band} (lower : bandNumber a < bandNumber b) (i : RegionId) (hi : i ∈ s.bands.get a) (j : RegionId)
      (hj : j ∈ s.bands.get b) : i ≠ j ∧ ∀ b c, regionBand (s.region i) = some b → regionBand (s.region j) = some c →
        bandNumber b ≤ bandNumber c := by
    refine ⟨?_, fun c d hc hd => ?_⟩
    · rintro rfl
      have same := (band hi).symm.trans (band hj)
      cases same
      exact absurd lower (lt_irrefl _)
    · rw [band hi] at hc
      rw [band hj] at hd
      cases hc
      cases hd
      exact lower.le
  refine List.pairwise_append.mpr ⟨List.pairwise_append.mpr ⟨within .guarded, within .elevated, ?_⟩, within .ordinary, ?_⟩
  · exact between (a := .guarded) (b := .elevated) (by decide)
  · intro i hi
    obtain guarded | elevated := List.mem_append.mp hi
    · exact between (a := .guarded) (b := .ordinary) (by decide) i guarded
    · exact between (a := .elevated) (b := .ordinary) (by decide) i elevated

/-- An entry holds the committed content of the LIVE record with its id (R111). -/
structure EntryOf (s : State) (e : Entry) (g : LiveRegion) : Prop where
  live : s.region e.id = .live g
  owner : e.owner = g.owner
  band : e.band = g.band
  geometry : e.geometry = g.committed.geometry
  source : e.source = g.committed.source
  opacity : e.opacity = g.committed.appearance.opacity
  touch : e.touch = g.committed.appearance.touch

/-- Whether the walk writes an entry for a record: LIVE with visible YES and an owner in the latched set (R120). -/
def writesEntry (visible : List ClientId) (r : Region) : Bool :=
  match r with
  | .live g => g.committed.appearance.visible && decide (g.owner ∈ visible)
  | _ => false

theorem scanEntry_eq_some {visible : List ClientId} {s : State} {i : RegionId} {e : Entry}
    (h : scanEntry visible s i = some e) : e.id = i ∧ ∃ g, EntryOf s e g := by
  unfold scanEntry at h
  split at h
  · next g live =>
    split_ifs at h
    cases h
    exact ⟨rfl, g, ⟨live, rfl, rfl, rfl, rfl, rfl, rfl⟩⟩
  · cases h

theorem scanEntry_map_id (visible : List ClientId) (s : State) (i : RegionId) :
    (scanEntry visible s i).map (·.id) = if writesEntry visible (s.region i) then some i else none := by
  unfold scanEntry writesEntry
  cases s.region i with
  | live g =>
    simp only [Bool.and_eq_true, decide_eq_true_eq]
    split_ifs <;> rfl
  | _ => rfl

theorem mem_copyEntries {visible : List ClientId} {s : State} {e : Entry} (h : e ∈ copyEntries visible s) :
    ∃ g, EntryOf s e g := by
  obtain ⟨i, -, found⟩ := List.mem_filterMap.mp h
  exact (scanEntry_eq_some found).2

/-- The ids of a copy are those of the walk whose records give an entry. -/
theorem map_id_copyEntries (visible : List ClientId) (s : State) :
    (copyEntries visible s).map (·.id) = (stackingWalk s).filter fun i => writesEntry visible (s.region i) := by
  rw [copyEntries, List.map_filterMap, ← List.filterMap_eq_filter]
  exact congrArg (fun f => List.filterMap f (stackingWalk s)) (funext fun i => by
    rw [scanEntry_map_id, Option.guard])

/-- Two entries of a copy come from different records, in the order of their bands. -/
theorem copyEntries_pairwise {visible : List ClientId} {s : State} (lists : BandListsHold s) :
    (copyEntries visible s).Pairwise fun a b => a.id ≠ b.id ∧ bandNumber a.band ≤ bandNumber b.band := by
  refine List.pairwise_filterMap.mpr ((stackingWalk_pairwise lists).imp fun order a ha b hb => ?_)
  obtain ⟨rfl, g, from_g⟩ := scanEntry_eq_some ha
  obtain ⟨rfl, h, from_h⟩ := scanEntry_eq_some hb
  refine ⟨order.1, order.2 _ _ ?_ ?_⟩
  · rw [from_g.live, from_g.band]; rfl
  · rw [from_h.live, from_h.band]; rfl

/-- A copy of tables in order holds what a scan list must, for a panel that the committed geometries are valid for (R111, R120,
R135). -/
theorem listHolds_copyEntries {visible : List ClientId} {s : State} {l : ScanList} (panel : l.panel.valid = true)
    (lists : BandListsHold s) (few : GuardedLimitHolds s) (apart : GuardedDisjoint s) (valid : PartsValid s)
    (fits : ∀ i g, s.region i = .live g → g.committed.geometry.valid l.panel = true) :
    ListHolds { l with entries := copyEntries visible s } := by
  have order := copyEntries_pairwise (visible := visible) lists
  have committed {e : Entry} {g : LiveRegion} (h : EntryOf s e g) : partValid s.panel g.band g.committed := by
    have all := (partsValid_iff s).mp valid e.id
    exact all.committed g h.live
  have ids : ((copyEntries visible s).map (·.id)).Nodup := List.pairwise_map.mpr (order.imp fun o => o.1)
  refine ⟨panel, ids, order.imp fun o => o.2, fun e he => ?_, ?_, fun e he guarded => ?_, ?_⟩
  · obtain ⟨g, h⟩ := mem_copyEntries he
    rw [h.geometry, h.source]
    exact ⟨fits _ _ h.live, (committed h).2.1⟩
  · refine le_trans ?_ few
    rw [← List.length_map (f := fun e : Entry => e.id)]
    refine (((List.filter_sublist.map _).nodup ids).subperm fun i hi => ?_).length_le
    obtain ⟨e, he, rfl⟩ := List.mem_map.mp hi
    obtain ⟨mem, band⟩ := List.mem_filter.mp he
    obtain ⟨g, h⟩ := mem_copyEntries mem
    have guarded : g.band = .guarded := h.band.symm.trans (by simpa using band)
    simp [h.live, guarded]
  · obtain ⟨g, h⟩ := mem_copyEntries he
    obtain ⟨-, -, appearance⟩ := committed h
    rw [h.opacity]
    exact of_decide_eq_true appearance (h.band.symm.trans guarded)
  · refine order.imp_of_mem fun {a b} ha hb o bandA bandB => ?_
    obtain ⟨g, from_g⟩ := mem_copyEntries ha
    obtain ⟨h, from_h⟩ := mem_copyEntries hb
    rw [from_g.geometry, from_h.geometry]
    exact apart a.id b.id o.1 g h from_g.live from_h.live (from_g.band.symm.trans bandA) (from_h.band.symm.trans bandB)

/-! ### What the scan lists hold -/

theorem listHolds_empty {l : ScanList} (panel : l.panel.valid = true) : ListHolds { l with entries := [] } :=
  ⟨panel, List.nodup_nil, .nil, nofun, Nat.zero_le _, nofun, .nil⟩

theorem listHolds_pin {l : ScanList} (n : Nat) (h : ListHolds l) : ListHolds { l with pinCount := n } :=
  ⟨h.panel, h.ids, h.stacked, h.valid, h.few, h.solid, h.apart⟩

/-- Lists that hold what they must, after one of them is changed so that it still does. -/
theorem listHolds_updScanList {s : State} {n : ListName} {f : ScanList → ScanList} (lists : ∀ m, ListHolds (s.scanList m))
    (changed : ListHolds (f (s.scanList n))) (m : ListName) : ListHolds ((s.updScanList n f).scanList m) := by
  rw [scanList_updScanList]
  split_ifs with own
  · rw [own]; exact changed
  · exact lists m

theorem exec_lookup_lists {c : Instr} {s t : State} (engine : c.agent = .lookupEngine) (run : exec c s = .next t) (n : ListName) :
    (ListHolds (s.scanList n) → ListHolds (t.scanList n)) ∧ (t.scanList n).panel = (s.scanList n).panel := by
  have high {f : State → State} {P : State → Prop} (same : P s) (effect : P (f s)) (g : whileHigh f s = .next t) : P t :=
    whileHigh_rel (R := fun _ t => P t) same effect g
  have pinned (m : ListName) (k : Nat) :
      (ListHolds (s.scanList n) → ListHolds ((s.updScanList m fun l => { l with pinCount := k }).scanList n))
        ∧ ((s.updScanList m fun l => { l with pinCount := k }).scanList n).panel = (s.scanList n).panel := by
    rw [scanList_updScanList]
    split_ifs
    · exact ⟨listHolds_pin k, rfl⟩
    · exact ⟨id, rfl⟩
  cases c with
  | lookupTake =>
    refine high (P := fun t => (ListHolds (s.scanList n) → ListHolds (t.scanList n))
      ∧ (t.scanList n).panel = (s.scanList n).panel) ⟨id, rfl⟩ ?_ run
    unfold takePoint
    split
    · split
      · exact pinned s.showing 1
      · exact ⟨id, rfl⟩
    · exact ⟨id, rfl⟩
  | lookupComplete =>
    refine high (P := fun t => (ListHolds (s.scanList n) → ListHolds (t.scanList n))
      ∧ (t.scanList n).panel = (s.scanList n).panel) ⟨id, rfl⟩ ?_ run
    unfold completeLookup
    split
    · exact ⟨id, rfl⟩
    · exact pinned _ 0
  | _ => cases engine

/-- What the Snapshot Unit's events leave in the lists, and that a copy in progress reads the panel it has latched (R115 to
R121). -/
structure SnapshotHolds (t : State) : Prop where
  lists : ∀ n, ListHolds (t.scanList n)
  copying : isCopying t = true → ∀ i g, t.region i = .live g → g.committed.geometry.valid (t.scanList t.filling).panel = true

/-- The unit at the start of a copy, the panel configuration and the visible clients latched (R118, R119). -/
def copyStarted (s : State) : State :=
  { s.updScanList s.filling (fun l => { l with tag := s.snapFrame, panel := s.panel, entries := [] }) with
    snapState := .copying { visible := visibleClients s, panel := s.panel } }

theorem startCopy_eq (s : State) : startCopy s = if copyMayStart s then copyStarted s else s := rfl

theorem copyStarted_frame (s : State) : copyStarted s = { s with
    snapState := .copying { visible := visibleClients s, panel := s.panel }
    listA := (copyStarted s).listA, listB := (copyStarted s).listB } := by
  unfold copyStarted
  rw [updScanList_frame]

theorem copyStarted_filling (s : State) : (copyStarted s).filling = s.filling := by
  unfold State.filling
  rw [copyStarted_frame]

theorem scanList_copyStarted (n : ListName) (s : State) : (copyStarted s).scanList n =
    if n = s.filling then { s.scanList n with tag := s.snapFrame, panel := s.panel, entries := [] } else s.scanList n :=
  (scanList_congr (t := copyStarted s) rfl rfl n).trans (scanList_updScanList n s.filling _ s)

/-- At a copy start every committed geometry is valid for the panel that is latched (R119). -/
theorem latched_fits {s : State} {i : RegionId} {g : LiveRegion} (valid : PartsValid s)
    (live : (copyStarted s).region i = .live g) :
    g.committed.geometry.valid ((copyStarted s).scanList (copyStarted s).filling).panel = true := by
  have same : s.region i = .live g := by
    rw [copyStarted_frame] at live
    exact live
  rw [copyStarted_filling, scanList_copyStarted, if_pos rfl]
  exact (((partsValid_iff s).mp valid i).committed g same).1

theorem exec_snapshotHolds {c : Instr} {s t : State} (unit : c.agent = .snapshotUnit) (run : exec c s = .next t)
    (lists : BandListsHold s) (few : GuardedLimitHolds s) (apart : GuardedDisjoint s) (valid : PartsValid s)
    (h : ScanListsHold s) : SnapshotHolds t := by
  have high {f : State → State} (effect : SnapshotHolds (f s)) (g : whileHigh f s = .next t) : SnapshotHolds t :=
    whileHigh_rel (R := fun _ t => SnapshotHolds t) ⟨h.lists, h.copying⟩ effect g
  have filling := h.lists s.filling
  have dropped (u : State) (same : ∀ n, u.scanList n = (s.updScanList s.filling dropEntries).scanList n)
      (state : u.snapState = .waiting) : SnapshotHolds u := by
    refine ⟨fun n => ?_, fun e => by simp [isCopying, state] at e⟩
    rw [same]
    exact listHolds_updScanList h.lists (listHolds_empty filling.panel) n
  cases c with
  | snapshotFrameStart =>
    refine high ?_ run
    unfold advanceSnapshot
    dsimp only
    split
    · exact ⟨fun n => h.lists n, fun e => by simp [isCopying] at e⟩
    · exact ⟨fun n => h.lists n, fun e => by simp [isCopying] at e⟩
    · exact dropped _ (fun n => by cases n <;> cases s.filling <;> rfl) (by rw [updScanList_frame])
    · exact dropped _ (fun n => by cases n <;> cases s.filling <;> rfl) (by rw [updScanList_frame])
  | copyStart =>
    refine high ?_ run
    rw [startCopy_eq]
    split
    · refine ⟨fun n => ?_, fun _ i g live => latched_fits valid live⟩
      rw [scanList_copyStarted]
      split
      · exact listHolds_empty (l := { s.scanList n with tag := s.snapFrame, panel := s.panel }) h.panel
      · exact h.lists n
    · exact ⟨h.lists, h.copying⟩
  | copyComplete =>
    refine high ?_ run
    unfold completeCopy
    split
    · next latch state =>
      refine ⟨fun n => listHolds_updScanList h.lists ?_ n, fun e => by simp [isCopying] at e⟩
      exact listHolds_copyEntries filling.panel lists few apart valid (h.copying (by simp [isCopying, state]))
    · exact ⟨h.lists, h.copying⟩
  | _ => cases unit

/-- With the same committed table, roles and panels of the lists, a copy in progress still reads its latched panel. -/
theorem ScanListsHold.congr {s t : State} (h : ScanListsHold s) (lists : ∀ n, ListHolds (t.scanList n))
    (panels : ∀ n, (t.scanList n).panel = (s.scanList n).panel) (panel : t.panel.valid = true)
    (copying : isCopying t = isCopying s) (showing : isCopying s = true → t.showing = s.showing)
    (committed : isCopying s = true → ∀ i, committedRecord (t.region i) = committedRecord (s.region i)) : ScanListsHold t := by
  refine ⟨lists, panel, fun e i g live => ?_⟩
  rw [copying] at e
  have filling : t.filling = s.filling := by unfold State.filling; rw [showing e]
  rw [filling, panels]
  have same := committed e i
  rw [live] at same
  cases r : s.region i with
  | free => rw [r] at same; cases same
  | reserved q => rw [r] at same; cases same
  | live q =>
    rw [r] at same
    simp only [committedRecord, Option.some.injEq, Prod.mk.injEq] at same
    obtain ⟨-, -, part, -⟩ := same
    rw [part]
    exact h.copying e i q r

theorem exec_timing_showing {c : Instr} {s t : State} (timing : c.agent = .timingInput) (run : exec c s = .next t)
    (copying : isCopying s = true) : t.showing = s.showing := by
  have high {f : State → State} (effect : (f s).showing = s.showing) (g : whileHigh f s = .next t) : t.showing = s.showing :=
    whileHigh_rel (R := fun _ t => t.showing = s.showing) rfl effect g
  have notReady : s.snapState ≠ .ready := by
    intro e
    simp [isCopying, e] at copying
  cases c with
  | frameStart => exact high (f := countFrame) rfl run
  | lineStart =>
    refine high ?_ run
    rw [takeLine, abandonBuild_eq, promotionOfLine_eq, beginBuild_eq]
    exact if_neg fun e => notReady e.2
  | _ => cases timing

theorem scanListsHold_reset : ScanListsHold State.reset := by
  have list (n : ListName) : ListHolds (State.reset.scanList n) := by
    cases n
    · exact listHolds_empty (l := State.reset.listA) rfl
    · exact listHolds_empty (l := State.reset.listB) rfl
  exact ⟨list, rfl, nofun⟩

theorem exec_scanListsHold {c : Instr} {s t : State} (rest : EngineAtRest s) (lists : BandListsHold s)
    (few : GuardedLimitHolds s) (apart : GuardedDisjoint s) (valid : PartsValid s) (h : ScanListsHold s)
    (reset : ∀ level, c ≠ .deviceReset level) (run : exec c s = .next t) : ScanListsHold t := by
  have panel := exec_panel_valid reset run h.panel
  have committed (copying : isCopying s = true) (i : RegionId) : committedRecord (t.region i) = committedRecord (s.region i) :=
    (committedFixedWhileCopying c s t rest lists copying reset run).2 i
  have kept (a : t.listA = s.listA) (b : t.listB = s.listB) (copying : isCopying t = isCopying s)
      (showing : isCopying s = true → t.showing = s.showing) : ScanListsHold t :=
    h.congr (fun n => by rw [scanList_congr a b]; exact h.lists n) (fun n => by rw [scanList_congr a b]) panel copying showing
      committed
  by_cases engine : c.agent = .requestEngine
  · have f := (exec_pieces engine run).frame
    exact kept (by rw [f]) (by rw [f]) (isCopying_congr (by rw [f])) fun _ => by rw [f]
  have noReset : c.agent ≠ .resetInput := by
    intro e
    cases c with
    | deviceReset level => exact reset level rfl
    | _ => cases e
  obtain ⟨-, f⟩ | ⟨-, f⟩ | ⟨agent, f⟩ | ⟨agent, -⟩ | ⟨-, f⟩ | ⟨-, f⟩ | ⟨agent, f⟩ := exec_block engine noReset run
  case timing => exact kept (by rw [f]) (by rw [f]) (exec_timing_isCopying agent run) (exec_timing_showing agent run)
  case snapshot =>
    obtain ⟨held, copying⟩ := exec_snapshotHolds agent run lists few apart valid h
    exact ⟨held, panel, copying⟩
  case lookup =>
    exact h.congr (fun n => (exec_lookup_lists agent run n).1 (h.lists n)) (fun n => (exec_lookup_lists agent run n).2) panel
      (isCopying_congr (by rw [f])) (fun _ => by rw [f]) committed
  all_goals exact kept (by rw [f]) (by rw [f]) (isCopying_congr (by rw [f])) fun _ => by rw [f]

/-- Settles O59: staging validates what it stages, and a copy writes the lists from tables in order. -/
theorem partsValidKept : Obligations.PartsValidKept := by
  refine ⟨fun s t valid h => partsValid_step valid h, fun s t rest lists few apart valid held h => ?_⟩
  unfold step at h
  split at h
  · cases h; exact held
  next c l _ =>
  have pending (u : State) (k : ScanListsHold u) (p : List Instr) (sel low : Bool) :
      ScanListsHold { u with pending := p, lkSel := sel, resetLow := low } := ⟨k.lists, k.panel, k.copying⟩
  by_cases reset : ∃ level, c = .deviceReset level
  · obtain ⟨level, rfl⟩ := reset
    cases h
    exact pending _ scanListsHold_reset _ _ _
  · exact exec_scanListsHold (s := { s with pending := l }) (rest.congr rfl rfl rfl rfl rfl rfl) lists few apart valid
      (pending s held l s.lkSel s.resetLow) (fun level e => reset ⟨level, e⟩) h

end Sys2Proof.Machine
end

section
/-! PROOF. The Snapshot Unit's events: a FRAME_START, the start of a copy and its end (R104, R114 to R121), and that a reset
meets the invariants. -/

namespace Sys2Proof.Machine

/-! ### FRAME_START -/

/-- The entries of the FILLING list are dropped when a copy in progress or a READY list is given up (R116, R117). -/
theorem advanceSnapshot_eq (s : State) : advanceSnapshot s = { s with
    snapFrame := s.snapFrame + 1, snapState := .waiting
    listA := (advanceSnapshot s).listA, listB := (advanceSnapshot s).listB
    copyEndDue := s.copyEndDue || isCopying s } := by
  unfold advanceSnapshot isCopying
  cases e : s.snapState <;> simp only [Bool.or_false, Bool.or_true] <;> rw [updScanList_frame]

theorem scanList_advanceSnapshot (s : State) (n : ListName) : (advanceSnapshot s).scanList n =
    if n = s.filling ∧ (isCopying s = true ∨ s.snapState = .ready) then dropEntries (s.scanList n) else s.scanList n := by
  have dropped (t : State) (lists : ∀ m, t.scanList m = s.scanList m) :
      (t.updScanList s.filling dropEntries).scanList n = if n = s.filling then dropEntries (s.scanList n) else s.scanList n := by
    rw [scanList_updScanList, lists]
  unfold advanceSnapshot
  cases e : s.snapState with
  | idle =>
    rw [if_neg (by simp [isCopying, e])]
    exact scanList_congr rfl rfl n
  | waiting =>
    rw [if_neg (by simp [isCopying, e])]
    exact scanList_congr rfl rfl n
  | copying latch =>
    simp only [isCopying, e, true_or, and_true]
    exact dropped { s with snapFrame := s.snapFrame + 1, snapState := .waiting } fun m => scanList_congr rfl rfl m
  | ready =>
    simp only [isCopying, e, or_true, and_true]
    exact dropped { s with snapFrame := s.snapFrame + 1, snapState := .waiting } fun m => scanList_congr rfl rfl m

/-- Settles O37: the two counters, and the Snapshot Unit by the state it is in. -/
theorem frameStartTaken : Obligations.FrameStartTaken := by
  refine ⟨fun s high => whileHigh_high high, fun s high => ⟨advanceSnapshot s, whileHigh_high high, advanceSnapshot_eq s, ?_, ?_⟩⟩
  · rw [scanList_advanceSnapshot, if_neg fun own => filling_ne_showing s own.1.symm]
  · rw [scanList_advanceSnapshot]
    exact if_congr ⟨fun e => e.2, fun e => ⟨rfl, e⟩⟩ rfl rfl

/-! ### Copies -/

/-- The conditions of a copy start (R118). -/
theorem copyMayStart_iff (s : State) : copyMayStart s = true ↔ s.snapState = .waiting ∧ s.copyEndDue = false
    ∧ s.committedWork = false ∧ (s.scanList s.filling).pinCount = 0 := by
  simp only [copyMayStart, Bool.and_eq_true, decide_eq_true_eq, Bool.not_eq_true', and_assoc]

/-- Settles O38: the conditions are those of `copyMayStart`, and the copy begins with the latch and an empty FILLING list. -/
theorem copyStarts : Obligations.CopyStarts := by
  intro s high starts
  have run : exec .copyStart s = .next (if copyMayStart s then copyStarted s else s) := whileHigh_high high
  refine ⟨fun may => ⟨copyStarted s, visibleClients s, ?_, copyStarted_frame s, fun k => ?_, ?_, ?_⟩, fun not => ?_⟩
  · rw [run, if_pos ((copyMayStart_iff s).mpr may)]
  · simp [visibleClients, mem_clientsWhere]
  · rw [scanList_copyStarted, if_neg (filling_ne_showing s).symm]
  · rw [scanList_copyStarted]
    exact if_pos rfl
  · rw [run, if_neg fun may => not ((copyMayStart_iff s).mp may)]

/-- The unit at the end of a copy (R121). -/
def copyEnded (latch : Latch) (s : State) : State :=
  { s.updScanList s.filling (fun l => { l with entries := copyEntries latch.visible s }) with
    snapState := .ready, copyEndDue := true }

theorem completeCopy_eq {latch : Latch} {s : State} (copying : s.snapState = .copying latch) :
    completeCopy s = copyEnded latch s := by
  unfold completeCopy copyEnded
  rw [copying]

theorem copyEnded_frame (latch : Latch) (s : State) : copyEnded latch s = { s with
    snapState := .ready, copyEndDue := true, listA := (copyEnded latch s).listA, listB := (copyEnded latch s).listB } := by
  unfold copyEnded
  rw [updScanList_frame]

theorem scanList_copyEnded (latch : Latch) (s : State) (n : ListName) : (copyEnded latch s).scanList n =
    if n = s.filling then { s.scanList n with entries := copyEntries latch.visible s } else s.scanList n :=
  (scanList_congr (t := copyEnded latch s) rfl rfl n).trans (scanList_updScanList n s.filling _ s)

/-- Settles O39: the entries are those of the walk, one for each record that gives one. -/
theorem copyCompletes : Obligations.CopyCompletes := by
  intro s latch high copying
  have filling : (copyEnded latch s).scanList (otherList s.showing) =
      { s.scanList (otherList s.showing) with entries := copyEntries latch.visible s } := by
    rw [scanList_copyEnded]
    exact if_pos rfl
  refine ⟨copyEnded latch s, ?_, copyEnded_frame latch s, ?_, ?_, ?_, fun e he => ?_⟩
  · exact (whileHigh_high high).trans (congrArg _ (completeCopy_eq copying))
  · rw [scanList_copyEnded, if_neg (filling_ne_showing s).symm]
  · rw [filling]
  · rw [filling]
    refine (map_id_copyEntries latch.visible s).trans (List.filter_congr fun i _ => ?_)
    unfold writesEntry
    split <;> simp_all
  · rw [filling] at he
    obtain ⟨g, h⟩ := mem_copyEntries he
    exact ⟨g, h.live, h.owner, h.band, h.geometry, h.source, h.opacity, h.touch⟩

/-! ### After reset -/

theorem bandListsHold_reset : BandListsHold State.reset := by
  intro b
  simp only [region_reset]
  cases b <;> simp [State.reset, Bands.get]

/-- Settles O48: each invariant of the fresh tables, from the lemma that its own step lemma starts with. -/
theorem resetMeetsInvariants : Obligations.ResetMeetsInvariants := by
  refine ⟨queueBounds_reset, engineAtRest_reset, pinsHold_reset, supervisorHolds_reset, recordsHold_reset, ?_, ?_,
    bandListsHold_reset, clientLimitsHold_reset, leasesHold_reset, partsValid_of_free region_reset, scanListsHold_reset,
    portHolds_reset, builderHolds_reset⟩
  · simp [GuardedLimitHolds, guardedCount, State.idsWhere, region_reset]
  · intro i j _ g h live
    rw [region_reset] at live
    cases live

end Sys2Proof.Machine
end

section
/-! PROOF. The commands of the queue, a reset, the Request Port, the Lookup Port and the Lookup Engine, each with its whole effect
(R20, R149 to R154, R161 to R178). -/

namespace Sys2Proof.Machine

/-! ### Steps and reset -/

/-- Every command answers a next state: the part has no trap and no fatal error. -/
theorem exec_next (c : Instr) (s : State) : ∃ t, exec c s = .next t := by
  cases c with
  | lkSelFall level => cases level <;> exact ⟨_, rfl⟩
  | _ => exact ⟨_, rfl⟩

/-- No command touches the queue of commands, which is outside the part (log 4). -/
theorem exec_pending {c : Instr} {s t : State} (h : exec c s = .next t) : t.pending = s.pending := by
  by_cases engine : c.agent = .requestEngine
  · rw [(exec_pieces engine h).frame]
  by_cases reset : c.agent = .resetInput
  · cases c with
    | deviceReset level => cases h; rfl
    | _ => cases reset
  · obtain ⟨-, f⟩ | ⟨-, f⟩ | ⟨-, f⟩ | ⟨-, f⟩ | ⟨-, f⟩ | ⟨-, f⟩ | ⟨-, f⟩ := exec_block engine reset h <;> rw [f]

/-- Settles O1: the front command is taken by definition; that every command completes is one case for each. -/
theorem stepRunsFrontCommand : Obligations.StepRunsFrontCommand := by
  refine ⟨fun c rest s front => ?_, fun s none => ?_, fun c s => ?_⟩
  · rw [step, front]
  · rw [step, none]
  · obtain ⟨t, h⟩ := exec_next c s
    exact ⟨t, h, exec_pending h⟩

/-- While RESET is low nothing but a reset and the LK_SEL pin has an effect (R106, R147, R163, R178). -/
theorem exec_low {c : Instr} {s : State} (low : s.resetLow = true) (reset : ∀ level, c ≠ .deviceReset level)
    (pin : ∀ level, c ≠ .lkSelFall level) : exec c s = .next s := by
  cases c with
  | deviceReset level => exact absurd rfl (reset level)
  | lkSelFall level => exact absurd rfl (pin level)
  | heldAnswerPlacement => exact whileHigh_low (f := fun s => goOn (placeHeld s)) low
  | _ => exact whileHigh_low low

/-- Settles O2: the reset values field by field, and no event taken while RESET is low. -/
theorem deviceResetValues : Obligations.DeviceResetValues := by
  refine ⟨fun s level => ⟨_, rfl, ?_⟩, fun s low => ⟨by simp [irq, low], by simp [spValid, low], fun c => exec_low low⟩⟩
  refine ⟨decide_eq_true_iff, fun i => region_reset i, fun k => client_reset k, rfl, rfl, rfl, rfl, rfl, rfl,
    fun k => counter_reset k, rfl, rfl, rfl, rfl, rfl, rfl, fun n => ?_, rfl, rfl, rfl, rfl, rfl, rfl, rfl, rfl, rfl, rfl, rfl,
    rfl, rfl, rfl, rfl, rfl, rfl, rfl, ?_, ?_, rfl, rfl⟩
  · cases n <;> rfl
  · simp [irq, State.reset, noFlags, answerAvailable, lookupAvailable]
  · simp [spValid, State.reset]

/-! ### Reading answers -/

theorem answerWords_length (a : Answer) : (answerWords a).length = answerLength a := by
  simp only [answerWords, answerLength, List.length_append, List.length_cons, List.length_nil]

theorem answerReadWord_cons {s : State} {a : Answer} {rest : List Answer} {w : Word} (answers : s.answers = a :: rest)
    (word : (answerWords a)[s.answerRead]? = some w) : answerReadWord s = w := by
  simp [answerReadWord, answers, word]

theorem advanceAnswerRead_more {s : State} {a : Answer} {rest : List Answer} (answers : s.answers = a :: rest)
    (more : s.answerRead + 1 < (answerWords a).length) : advanceAnswerRead s = { s with answerRead := s.answerRead + 1 } := by
  rw [answerWords_length] at more
  simp [advanceAnswerRead, answers, more]

theorem advanceAnswerRead_last {s : State} {a : Answer} {rest : List Answer} (answers : s.answers = a :: rest)
    (last : s.answerRead + 1 = (answerWords a).length) :
    advanceAnswerRead s = placeHeld { s with answers := rest, answerRead := 0 } := by
  rw [answerWords_length] at last
  simp [advanceAnswerRead, answers, last]

/-- An answer given does not depend on what the port drives. -/
theorem given_driven (b : Answer) (r : Resume) (s : State) (w : Option Word) (empty : Bool) :
    { given b r s with rqData := w, lastReadEmpty := empty } = given b r { s with rqData := w, lastReadEmpty := empty } := rfl

theorem readAnswer_cons {s : State} {a : Answer} {rest : List Answer} {w : Word} (answers : s.answers = a :: rest)
    (word : (answerWords a)[s.answerRead]? = some w) :
    readAnswer s = { advanceAnswerRead s with rqData := some w, lastReadEmpty := false } := by
  rw [readAnswer, answerReadWord_cons answers word, answers]
  rfl

/-- Settles O4: a word of the head answer that is not its last, its last with and without an answer held, and an empty queue. -/
theorem answerReadNext : Obligations.AnswerReadNext := by
  refine ⟨fun s a rest w high answers word => ⟨fun more => ?_, fun last => ⟨fun none => ?_, fun b r held room => ?_⟩⟩, fun s high none => ?_⟩
  all_goals refine (whileHigh_high (f := readAnswer) high).trans (congrArg _ ?_)
  · rw [readAnswer_cons answers word, advanceAnswerRead_more answers more]
  · have notHeld : placeHeld { s with answers := rest, answerRead := 0 } = { s with answers := rest, answerRead := 0 } := by
      obtain ⟨b, r, e, -⟩ | ⟨-, e⟩ := placeHeld_cases { s with answers := rest, answerRead := 0 }
      · exact absurd e (none b r)
      · exact e
    rw [readAnswer_cons answers word, advanceAnswerRead_last answers last, notHeld]
  · have placed : placeHeld { s with answers := rest, answerRead := 0 } = given b r { s with answers := rest, answerRead := 0 } := by
      have tried : placeHeld { s with answers := rest, answerRead := 0 } = placeAnswer b r { s with answers := rest, answerRead := 0 } := by
        rw [placeHeld, held]
      rw [tried, placeAnswer_eq_answered]
      exact if_pos room
    rw [readAnswer_cons answers word, advanceAnswerRead_last answers last, placed, given_driven]
  · have nothing : advanceAnswerRead s = s := by simp [advanceAnswerRead, none]
    rw [readAnswer, nothing, answerReadWord, none]
    rfl

/-! ### Bits of a word -/

theorem bitAt_eq (b : Bool) (n : Nat) : bitAt b n = b.toNat * 2 ^ n := by
  cases b <;> simp [bitAt]

/-- A bit of a word, from the number the word holds. -/
theorem getLsbD_ofNat_eq {n : Nat} {j : Nat} {b : Bool} (h : n / 2 ^ j % 2 = b.toNat) (small : j < 16) :
    (BitVec.ofNat 16 n).getLsbD j = b := by
  rw [BitVec.getLsbD_ofNat, Nat.testBit_eq_decide_div_mod_eq, h]
  cases b <;> simp [small]

/-- The bits of the first status word (R185 tables). -/
theorem statusFirstWord_getLsbD (p : StatusSnapshot) (j : Nat) : (statusFirstWord p).getLsbD j =
    match j with
    | 0 => p.flags.snapshotLate
    | 1 => p.flags.lineDropped
    | 2 => p.flags.spanOverflow
    | 3 => p.flags.leaseLapse
    | 4 => p.flags.requestOverrun
    | 5 => p.flags.lookupOverrun
    | 8 => p.answerAvailable
    | 9 => p.lookupAvailable
    | 12 => p.assemblyInProgress
    | 13 => p.lastReadEmpty
    | _ => false := by
  have late := p.flags.snapshotLate.toNat_le
  have dropped := p.flags.lineDropped.toNat_le
  have overflow := p.flags.spanOverflow.toNat_le
  have lapse := p.flags.leaseLapse.toNat_le
  have request := p.flags.requestOverrun.toNat_le
  have lookup := p.flags.lookupOverrun.toNat_le
  have answer := p.answerAvailable.toNat_le
  have result := p.lookupAvailable.toNat_le
  have progress := p.assemblyInProgress.toNat_le
  have empty := p.lastReadEmpty.toNat_le
  by_cases small : j < 16
  · unfold statusFirstWord flagBits
    simp only [bitAt_eq]
    interval_cases j <;> refine getLsbD_ofNat_eq ?_ (by decide) <;> simp only [Bool.toNat_false] <;> omega
  · rw [BitVec.getLsbD_of_ge _ _ (Nat.not_lt.mp small)]
    split <;> simp_all

/-- The ENABLE word holds the mask where the first status word holds the flags and the two level conditions (R185 tables). -/
theorem enableWord_eq (e : EnableMask) : enableWord e = statusFirstWord {
    flags := e.flags, answerAvailable := e.answerAvailable, lookupAvailable := e.lookupAvailable, assemblyInProgress := false
    lastReadEmpty := false, queueRoom := 0, answersWaiting := 0, wordsRemaining := 0 } := by
  simp [enableWord, statusFirstWord, bitAt]

/-- What a write to ENABLE stores is read back, the other bits being 0 (R176, R185). -/
theorem enableWord_enableMaskOf (w : Word) : enableWord (enableMaskOf w) = w &&& 0x033F#16 := by
  rw [enableWord_eq]
  refine BitVec.eq_of_getLsbD_eq fun j small => ?_
  rw [statusFirstWord_getLsbD]
  interval_cases j <;> simp [enableMaskOf, flagsOfWord]

/-- The second status word for counts within their sizes (R185 tables). -/
theorem statusSecondWord_toNat {p : StatusSnapshot} (room : p.queueRoom ≤ 16) (waiting : p.answersWaiting ≤ 16)
    (remaining : p.wordsRemaining ≤ 24) :
    (statusSecondWord p).toNat = p.queueRoom + 32 * p.answersWaiting + 1024 * p.wordsRemaining := by
  simp only [statusSecondWord, fieldAt, BitVec.toNat_ofNat]
  omega

theorem statusSnapshot_eq (s : State) : statusSnapshot s =
    { flags := s.flags, answerAvailable := decide (s.answers ≠ []), lookupAvailable := decide (s.lookupAnswers ≠ [])
      assemblyInProgress := decide (s.assembly.words ≠ []), lastReadEmpty := s.lastReadEmpty
      queueRoom := 16 - s.requests.length, answersWaiting := s.answers.length
      wordsRemaining := (s.answers.head?.map fun a => (answerWords a).length - s.answerRead).getD 0 } := by
  have nonempty {α : Type} (l : List α) [DecidableEq α] : (!l.isEmpty) = decide (l ≠ []) := by cases l <;> simp
  have remaining : (match s.answers with | [] => 0 | a :: _ => answerLength a - s.answerRead) =
      (s.answers.head?.map fun a => (answerWords a).length - s.answerRead).getD 0 := by
    cases s.answers with
    | nil => rfl
    | cons a rest => simp [answerWords_length]
  rw [← remaining]
  unfold statusSnapshot answerAvailable lookupAvailable
  rw [nonempty, nonempty, nonempty] <;> rfl

/-- Settles O5: the two positions of the read, the fields of the snapshot, and the bits of its words. -/
theorem statusReadPair : Obligations.StatusReadPair := by
  refine ⟨fun s high first => ?_, fun s p high second => ?_, statusSnapshot_eq, statusFirstWord_getLsbD,
    fun p room waiting remaining => statusSecondWord_toNat room waiting remaining⟩
  · exact (whileHigh_high (f := readStatus) high).trans (congrArg _ (by rw [readStatus, first]))
  · exact (whileHigh_high (f := readStatus) high).trans (congrArg _ (by rw [readStatus, second]))

/-- Settles O6: both rows are the one write to STATUS. -/
theorem statusWriteClears : Obligations.StatusWriteClears :=
  fun w _ high => ⟨whileHigh_high (f := statusWrite w) high, fun _ => whileHigh_high (f := statusWrite w) high⟩

/-- Settles O7: the mask stored and read back, the edges that change nothing else, and the pins of each edge. -/
theorem enableWriteReplaces : Obligations.EnableWriteReplaces := by
  refine ⟨fun w s high => ⟨writeEnables w s, whileHigh_high (f := writeEnables w) high, rfl, rfl, rfl, rfl, ?_⟩, fun s high => ?_,
    fun w => ⟨rfl, rfl, rfl, rfl, rfl, rfl, rfl, rfl⟩, fun p none => ?_⟩
  · have read : exec (.answerWindowWrite .enableRead) (writeEnables w s) = .next (quietEdge .enableRead (writeEnables w s)) :=
      whileHigh_high high
    rw [read, quietEdge, quietWord, writeEnables, enableWord_enableMaskOf]
  · exact ⟨fun w => whileHigh_high (f := quietEdge (.answerWrite w)) high, whileHigh_high (f := quietEdge .requestRead) high,
      whileHigh_high (f := quietEdge .enableRead) high, whileHigh_high (f := quietEdge .noTransaction) high⟩
  · unfold edgeCommand
    obtain off | same := none
    · simp [off]
    · cases rd : p.rd <;> simp [same, rd]

/-! ### The Lookup Port -/

/-- A read takes the byte at the read position, the eighteenth leaving with its answer (R161). -/
theorem advanceLookupRead_cons {s : State} {a : LookupAnswer} {rest : List LookupAnswer} {b : Byte}
    (answers : s.lookupAnswers = a :: rest) (byte : (lookupAnswerBytes a)[s.lookupRead]? = some b) :
    advanceLookupRead s = if s.lookupRead = 17 then { s with lookupAnswers := rest, lookupRead := 0 }
      else { s with lookupRead := s.lookupRead + 1 } := by
  obtain ⟨within, -⟩ := List.getElem?_eq_some_iff.mp byte
  rw [lookupAnswerBytes_length] at within
  rw [advanceLookupRead, answers]
  simp only [lookupAnswerBytes_length]
  by_cases last : s.lookupRead = 17
  · rw [if_neg (by omega), if_pos last]
  · rw [if_pos (by omega), if_neg last]

theorem lookupByte_cons {s : State} {a : LookupAnswer} {rest : List LookupAnswer} {b : Byte}
    (answers : s.lookupAnswers = a :: rest) (byte : (lookupAnswerBytes a)[s.lookupRead]? = some b) : lookupByte s = b := by
  simp [lookupByte, answers, byte]

/-- A byte write while LK_SEL is high (R150, R151). -/
theorem writePointByte_selected {s : State} (selected : s.lkSel = true) (b : Byte) : writePointByte b s =
    if s.pointBytes.length < 4 then { s with pointBytes := s.pointBytes ++ [b] }
    else completePoint (pointOf (s.pointBytes ++ [b]) s) { s with pointBytes := [] } := by
  have whole : (s.pointBytes ++ [b]).length < Config.pointBytes ↔ s.pointBytes.length < 4 := by
    rw [List.length_append, List.length_singleton]
    exact Nat.succ_lt_succ_iff
  simp only [writePointByte, selected, Bool.not_true, Bool.false_eq_true, if_false, whole]

/-- An event that changes nothing changes nothing at either level of RESET. -/
theorem whileHigh_same {f : State → State} {s : State} (same : f s = s) : whileHigh f s = .next s := by
  simp [whileHigh, same]

theorem readLookupByte_selected {s : State} (selected : s.lkSel = true) :
    readLookupByte s = { advanceLookupRead s with lkByte := some (lookupByte s) } := if_pos selected

/-- Settles O45: bytes written short of a point and making one, the level of LK_SEL, and bytes read with and without an answer. -/
theorem lookupPortBytes : Obligations.LookupPortBytes := by
  refine ⟨fun s b high selected short => ?_, fun s b0 b1 b2 b3 b4 high selected bytes => ?_, fun s low => ⟨?_, fun b => ?_, ?_⟩,
    fun s => rfl, fun s => rfl, fun s a rest b selected answers byte => ⟨?_, fun high => ?_⟩,
    fun s selected none => ⟨?_, fun high => ?_⟩⟩
  · refine (whileHigh_high (f := writePointByte b) high).trans (congrArg _ ?_)
    rw [writePointByte_selected selected, if_pos short]
  · refine (whileHigh_high (f := writePointByte b4) high).trans (congrArg _ ?_)
    rw [writePointByte_selected selected, if_neg (by simp [bytes]), bytes]
    rfl
  · simp [lkDo, low]
  · exact whileHigh_same (by simp [writePointByte, low])
  · exact whileHigh_same (by simp [readLookupByte, low])
  · simp [lkDo, selected, lookupByte_cons answers byte]
  · refine (whileHigh_high (f := readLookupByte) high).trans (congrArg _ ?_)
    rw [readLookupByte_selected selected, lookupByte_cons answers byte, advanceLookupRead_cons answers byte]
    split_ifs <;> rfl
  · simp [lkDo, selected, lookupByte, none, Config.lookupFiller]
  · refine (whileHigh_high (f := readLookupByte) high).trans (congrArg _ ?_)
    have nothing : advanceLookupRead s = s := by simp [advanceLookupRead, none]
    have filler : lookupByte s = 255 := by simp [lookupByte, none, Config.lookupFiller]
    rw [readLookupByte_selected selected, nothing, filler]

/-! ### The Lookup Engine -/

/-- Settles O46: the point taken with its pin, nothing to take, and the answer with the pin released. -/
theorem lookupTakenAndCompleted : Obligations.LookupTakenAndCompleted := by
  refine ⟨fun s high => ⟨fun p rest idle points room => ?_, fun none => ?_⟩, fun s p n high busy => ?_⟩
  · have taken : takePoint s = { s.updScanList s.showing (fun l => { l with pinCount := 1 }) with
        points := rest, lookup := .looking p s.showing } := by
      simp [takePoint, idle, points, Config.lookupAnswerQueueSize, room]
    refine ⟨_, (whileHigh_high (f := takePoint) high).trans (congrArg _ taken), ?_, ?_, ?_⟩
    · rw [updScanList_frame]
    · exact (scanList_congr rfl rfl _).trans (scanList_updScanList_same _ _ s)
    · exact (scanList_congr rfl rfl _).trans ((scanList_updScanList _ _ _ s).trans (if_neg (otherList_ne _)))
  · refine (whileHigh_high (f := takePoint) high).trans (congrArg _ ?_)
    unfold takePoint
    split
    · next p rest idle points =>
      obtain busy | empty | full := none
      · exact absurd idle busy
      · rw [points] at empty; cases empty
      · exact if_neg (Nat.not_lt.mpr full)
    · rfl
  · have completed : completeLookup s = { s.updScanList n (fun l => { l with pinCount := 0 }) with
        lookupAnswers := s.lookupAnswers ++ [lookupAnswer p (s.scanList n)], lookup := .idle } := by
      rw [completeLookup, busy]
    refine ⟨_, (whileHigh_high (f := completeLookup) high).trans (congrArg _ completed), ?_, ?_, ?_⟩
    · rw [updScanList_frame]
      rfl
    · exact (scanList_congr rfl rfl _).trans (scanList_updScanList_same _ _ s)
    · exact (scanList_congr rfl rfl _).trans ((scanList_updScanList _ _ _ s).trans (if_neg (otherList_ne _)))

end Sys2Proof.Machine
end

section
/-! PROOF. The words of messages, answers and span items and the bytes of lookup answers, field by field (R179 to R184). -/

namespace Sys2Proof.Machine

/-! ### Numbers of words -/

theorem bitNumber_eq (b : Bool) (n : Nat) : bitNumber b n = b.toNat * 2 ^ n := by
  cases b <;> simp [bitNumber]

theorem bandNumber_le (b : Band) : bandNumber b ≤ 2 := by
  cases b <;> decide

theorem answerCodeNumber_le (c : AnswerCode) : answerCodeNumber c ≤ 18 := by
  cases c <;> decide

theorem clientStateNumber_le (c : ClientState) : clientStateNumber c ≤ 4 := by
  cases c <;> decide

/-- A word that holds a number of 16 bits. -/
theorem toNat_ofNat_of_lt {n v : Nat} (h : v = n) (small : n < 65536) : (BitVec.ofNat 16 v).toNat = n := by
  rw [h, BitVec.toNat_ofNat, Nat.mod_eq_of_lt small]

/-- A span word that holds a number of 32 bits. -/
theorem toNat_ofNat_span {n v : Nat} (h : v = n) (small : n < 2 ^ 32) : (BitVec.ofNat 32 v).toNat = n := by
  rw [h, BitVec.toNat_ofNat, Nat.mod_eq_of_lt small]

/-- A byte that holds a number of 8 bits. -/
theorem toNat_ofNat_byte {n v : Nat} (h : v = n) (small : n < 256) : (BitVec.ofNat 8 v).toNat = n := by
  rw [h, BitVec.toNat_ofNat, Nat.mod_eq_of_lt small]

/-! ### Requests -/

theorem messageWord_append (before after : List Word) (w : Word) :
    messageWord (before ++ w :: after) (before.length + 1) = w := by
  simp [messageWord]

theorem requestLayout : RequestLayout where
  words := messageWord_append
  header m := by
    have client : wordField (messageWord m 2) 12 4 = (messageWord m 2).toNat / 4096 := by
      have := (messageWord m 2).isLt
      simp only [wordField]
      omega
    refine ⟨?_, by simp [messageHeader, BitVec.extractLsb'_toNat]⟩
    have small : (messageWord m 2).toNat / 4096 < 16 := by
      have := (messageWord m 2).isLt
      omega
    simp only [messageHeader, client, Fin.ofNat_eq_cast, Fin.val_natCast]
    exact Nat.mod_eq_of_lt small
  create w1 w2 x y w h p ww wh oc orow a := rfl
  edit w1 w2 w3 x y w h p ww wh oc orow a := by
    unfold editGroups editMask
    rw [show messageWord ([w1, w2, w3] ++ (if w3.getLsbD 8 then [x, y, w, h] else [])
        ++ (if w3.getLsbD 9 then [p, ww, wh, oc, orow] else []) ++ (if w3.getLsbD 10 then [a] else [])) 3 = w3 from rfl]
    generalize w3.getLsbD 8 = geometry, w3.getLsbD 9 = source, w3.getLsbD 10 = appearance
    cases geometry <;> cases source <;> cases appearance <;> rfl

/-! ### Answers -/

theorem regionReportWords_length (r : RegionReport) : (regionReportWords r).length = 21 := by
  unfold regionReportWords
  dsimp only
  split
  · rfl
  · split_ifs <;> rfl
  · split <;> rfl

theorem fieldWords_length (f : AnswerFields) : (fieldWords f).length ≤ 21 := by
  cases f with
  | regionReport r => rw [fieldWords, regionReportWords_length]
  | _ => simp [fieldWords, clientReportWords]

theorem answerLength_bounds (a : Answer) : 2 ≤ answerLength a ∧ answerLength a ≤ 24 := by
  have fields := fieldWords_length a.reply.fields
  have header : (headerWords a.header).length ≤ 1 := by cases a.header <;> simp [headerWords]
  unfold answerLength
  omega

theorem detailNumber_eq (d : Detail) : detailNumber d =
    match d with | .none => 0 | .geometry => 1 | .source => 2 | .appearance => 3 | .lapse => 1 | .close => 2 := by
  cases d <;> rfl

theorem detailNumber_le (d : Detail) : detailNumber d ≤ 3 := by
  cases d <;> decide

theorem headerWords_toNat (h : Option Header) : (headerWords h).map (·.toNat) =
    match h with | none => [] | some h => [h.client.val * 4096 + h.tag.toNat] := by
  cases h with
  | none => rfl
  | some h =>
    have client := h.client.isLt
    have tag := h.tag.isLt
    simp only [headerWords, List.map_cons, List.map_nil, fieldAt]
    congr 1
    exact toNat_ofNat_of_lt (by omega) (by omega)

theorem answerLayout : AnswerLayout where
  length a := by rw [answerWords_length]; exact answerLength_bounds a
  words a := by
    have length := answerLength_bounds a
    have kind := a.kind.isLt
    have code := answerCodeNumber_le a.reply.code
    have detail := detailNumber_le a.reply.detail
    have present := a.header.isSome.toNat_le
    rw [answerWords_length]
    have written : (answerWords a).map (·.toNat) = [a.kind.toNat * 256 + answerLength a, bitNumber a.header.isSome 15
        + 256 * detailNumber a.reply.detail + answerCodeNumber a.reply.code] ++ (headerWords a.header).map (·.toNat)
          ++ (fieldWords a.reply.fields).map (·.toNat) := by
      simp only [answerWords, List.map_append, List.map_cons, List.map_nil, fieldAt, bitAt_eq, bitNumber_eq]
      refine congrArg (· ++ _) (congrArg (· ++ _) (congrArg₂ List.cons ?_ (congrArg (List.cons · []) ?_)))
      · exact toNat_ofNat_of_lt (by omega) (by omega)
      · exact toNat_ofNat_of_lt (by omega) (by omega)
    rw [written, headerWords_toNat, detailNumber_eq] <;> rfl
  codes := by decide

/-- The numbers of the nine words of a part that is valid (R182). -/
theorem partWords_toNat {p : Panel} {b : Band} {q : Part} (valid : partValid p b q) (retire : Bool) :
    (partWords q retire).map (·.toNat) = partLayout q retire := by
  obtain ⟨geometry, source, -⟩ := valid
  simp only [Geometry.valid, decide_eq_true_eq] at geometry
  simp only [Source.valid, decide_eq_true_eq] at source
  have keyed := (decide (q.appearance.opacity = .keyed)).toNat_le
  have visible := q.appearance.visible.toNat_le
  have accepts := (decide (q.appearance.touch = .accepts)).toNat_le
  have marked := retire.toNat_le
  simp only [partWords, partLayout, List.map_cons, List.map_nil, List.cons.injEq, and_true, fieldAt, bitAt_eq, bitNumber_eq]
  refine ⟨?_, ?_, ?_, ?_, ?_, ?_, ?_, ?_, ?_⟩ <;> exact toNat_ofNat_of_lt (by omega) (by omega)

theorem absentPartWords_toNat : absentPartWords.map (·.toNat) = List.replicate 9 0 := rfl

theorem regionReport_word5 (i : RegionId) {position : Nat} (h : position ≤ 64) :
    (BitVec.ofNat 16 (fieldAt i.val 8 8 + fieldAt position 7 0)).toNat = 256 * i.val + position := by
  have id := i.isLt
  simp only [fieldAt]
  exact toNat_ofNat_of_lt (by omega) (by omega)

/-- The first of the words of a region report (R182). -/
theorem regionReport_word4 (state : Nat) (b : Band) (k : ClientId) (committed shown : Bool) (small : state ≤ 2) :
    (BitVec.ofNat 16 (state + fieldAt (bandNumber b) 2 4 + fieldAt k.val 4 8 + bitAt committed 12 + bitAt committed 13
      + bitAt shown 14)).toNat =
    state + 16 * bandNumber b + 256 * k.val + bitNumber committed 12 + bitNumber committed 13 + bitNumber shown 14 := by
  have band := bandNumber_le b
  have client := k.isLt
  have is := committed.toNat_le
  have see := shown.toNat_le
  simp only [fieldAt, bitAt_eq, bitNumber_eq]
  exact toNat_ofNat_of_lt (by omega) (by omega)

theorem fieldLayout : FieldLayout where
  noFields := rfl
  region i := by
    have := i.isLt
    simp only [fieldWords, List.map_cons, List.map_nil]
    exact congrArg (List.cons · []) (toNat_ofNat_of_lt rfl (by omega))
  moveCount n small := by
    simp only [fieldWords, List.map_cons, List.map_nil, fieldAt]
    exact congrArg (List.cons · []) (toNat_ofNat_of_lt (by omega) (by omega))
  publish eff applied skipped most least := by
    have := eff.isSome.toNat_le
    simp only [fieldWords, List.map_cons, List.map_nil, fieldAt, bitAt_eq, bitNumber_eq]
    exact congrArg (List.cons · _) (toNat_ofNat_of_lt (by omega) (by omega))
  overlap a b := by
    have := a.isLt
    have := b.isLt
    simp only [fieldWords, List.map_cons, List.map_nil, fieldAt]
    exact congrArg (List.cons · []) (toNat_ofNat_of_lt (by omega) (by omega))
  effective f := rfl
  regionReport r position valid := by
    have word5 := regionReport_word5 r.id position
    obtain ⟨id, region, position', shown⟩ := r
    cases region with
    | free =>
      simp only [fieldWords, regionReportWords, List.map_append, List.map_cons, List.map_nil, absentPartWords_toNat]
      exact congrArg (fun n => [0, n, 0] ++ List.replicate 9 0 ++ List.replicate 9 0) word5
    | reserved g =>
      obtain ⟨p, part⟩ := valid
      have word4 := regionReport_word4 1 g.band g.owner false shown (by decide)
      have none12 : bitAt false 12 = 0 ∧ bitAt false 13 = 0 ∧ bitNumber false 12 = 0 ∧ bitNumber false 13 = 0 := by decide
      obtain ⟨a12, a13, n12, n13⟩ := none12
      rw [a12, a13, n12, n13] at word4
      simp only [Nat.add_zero] at word4
      have staged := partWords_toNat part false
      simp only [fieldWords, regionReportWords, List.map_append, List.map_cons, List.map_nil, absentPartWords_toNat, word4, word5]
      cases shown
      · rfl
      · exact congrArg (_ ++ ·) staged
    | live g =>
      obtain ⟨p, committed, held⟩ := valid
      have word4 := regionReport_word4 2 g.band g.owner true (shown && g.staged.isSome) (by decide)
      have first := partWords_toNat committed false
      obtain ⟨owner, band, part, staged, changed⟩ := g
      simp only [fieldWords, regionReportWords, List.map_append, List.map_cons, List.map_nil, word4, word5, first]
      cases staged with
      | none => cases shown <;> rfl
      | some st =>
        cases shown
        · rfl
        · exact congrArg (_ ++ ·) (partWords_toNat (held st rfl) st.retire)
  clientReport r owned lease moves terms := by
    have target := r.target.isLt
    have state := clientStateNumber_le r.state
    have parked := r.parkedEntry.toNat_le
    have named : clientStateNumber r.state =
        match r.state with | .closed => 0 | .active => 1 | .publishing => 2 | .lapsed => 3 | .closing => 4 := by
      cases r.state <;> rfl
    suffices written : (fieldWords (.clientReport r)).map (·.toNat) =
        [4096 * r.target.val + 256 * clientStateNumber r.state + 16 * ((r.terms.map fun t => bandNumber t.cls).getD 0)
            + bitNumber r.terms.isSome 3 + bitNumber r.parkedEntry 0,
          256 * r.owned + (r.terms.map (·.quota)).getD 0, (r.terms.map (·.period)).getD 0,
          4096 * r.moveCount + r.leaseRemaining] by
      rw [written, named] <;> rfl
    cases e : r.terms with
    | none =>
      simp only [fieldWords, clientReportWords, e, List.map_cons, List.map_nil, List.cons.injEq, and_true, fieldAt, bitAt_eq,
        bitNumber_eq, Option.map_none, Option.getD_none, Option.isSome_none, Bool.toNat_false]
      refine ⟨?_, ?_, ?_, ?_⟩ <;> exact toNat_ofNat_of_lt (by omega) (by omega)
    | some t =>
      obtain ⟨quota, period⟩ := terms t e
      have cls := bandNumber_le t.cls
      simp only [fieldWords, clientReportWords, e, List.map_cons, List.map_nil, List.cons.injEq, and_true, fieldAt, bitAt_eq,
        bitNumber_eq, Option.map_some, Option.getD_some, Option.isSome_some, Bool.toNat_true]
      refine ⟨?_, ?_, ?_, ?_⟩ <;> exact toNat_ofNat_of_lt (by omega) (by omega)
  bands := ⟨rfl, rfl, rfl⟩

/-! ### Span items -/

theorem underlayFields_eq {u : UnderlaySource} (plane : u.plane ≤ 7) (wrap : u.wrapWidth ≤ 4096) (row : u.row ≤ 4095)
    (column : u.startColumn ≤ 4095) : underlayFields u = underlayLayout u := by
  have id := u.id.isLt
  simp only [underlayFields, underlayLayout, fieldAt, Prod.mk.injEq]
  omega

theorem spanLayout : SpanLayout where
  lineHead n tag count overflow line spans := by
    have := overflow.toNat_le
    have := tag.isLt
    simp only [itemWords, List.map_cons, List.map_nil, List.cons.injEq, and_true, fieldAt, bitAt_eq, bitNumber_eq]
    exact ⟨toNat_ofNat_span (by omega) (by omega), toNat_ofNat_span rfl (by omega)⟩
  background x len start length := by
    simp only [itemWords, List.map_cons, List.map_nil, List.cons.injEq, and_true, fieldAt]
    exact ⟨toNat_ofNat_span (by omega) (by omega), rfl, rfl⟩
  region x len r start length plane wrap row column := by
    have := r.underlay.isSome.toNat_le
    have := r.owner.isLt
    have := r.id.isLt
    simp only [itemWords, List.map_cons, List.map_nil, List.cons.injEq, and_true, fieldAt, bitAt_eq, bitNumber_eq, Bool.toNat_true]
    refine ⟨?_, ?_, ?_⟩ <;> exact toNat_ofNat_span (by omega) (by omega)
  noUnderlay := rfl
  underlay u plane wrap row column := by
    have := u.id.isLt
    simp only [itemWords, underlayFields_eq plane wrap row column, List.map_cons, List.map_nil, List.cons.injEq, and_true, bitAt_eq,
      Bool.toNat_true, underlayLayout]
    exact ⟨toNat_ofNat_span (by omega) (by omega), toNat_ofNat_span rfl (by omega)⟩
  lineAbort n tag line := by
    have := tag.isLt
    simp only [itemWords, List.map_cons, List.map_nil, List.cons.injEq, and_true, fieldAt]
    exact ⟨toNat_ofNat_span (by omega) (by omega), toNat_ofNat_span rfl (by omega)⟩
  codes it := by
    cases it with
    | lineHead n tag count overflow =>
      have := overflow.toNat_le
      have := tag.isLt
      simp only [itemWords, List.map_cons, List.map_nil, List.cons.injEq, and_true, fieldAt, bitAt_eq, BitVec.toNat_ofNat]
      omega
    | span sp =>
      cases e : sp.content with
      | none =>
        simp only [itemWords, e, List.map_cons, List.map_nil, List.cons.injEq, and_true, fieldAt, BitVec.toNat_ofNat]
        exact ⟨by omega, rfl, rfl⟩
      | some r =>
        have := r.underlay.isSome.toNat_le
        simp only [itemWords, e, List.map_cons, List.map_nil, List.cons.injEq, and_true, fieldAt, bitAt_eq, BitVec.toNat_ofNat,
          Bool.toNat_true]
        omega
    | underlay u =>
      cases u with
      | none => rfl
      | some u =>
        simp only [itemWords, underlayFields, List.map_cons, List.map_nil, List.cons.injEq, and_true, fieldAt, bitAt_eq,
          BitVec.toNat_ofNat, Bool.toNat_true]
        omega
    | lineAbort n tag =>
      have := tag.isLt
      simp only [itemWords, List.map_cons, List.map_nil, List.cons.injEq, and_true, fieldAt, BitVec.toNat_ofNat]
      omega

/-! ### Lookup answers -/

theorem twoBytes_toNat {n : Nat} (small : n < 65536) : (twoBytes n).map (·.toNat) = highLow n := by
  simp only [twoBytes, highLow, List.map_cons, List.map_nil, List.cons.injEq, and_true, BitVec.toNat_ofNat]
  omega

theorem resultNumber_eq (r : LookupResult) : resultNumber r =
    match r with | .outside => 0 | .background => 1 | .absorbed _ _ => 2 | .hit _ => 3 := by
  cases r <;> rfl

theorem resultNumber_le (r : LookupResult) : resultNumber r ≤ 3 := by
  cases r <;> simp [resultNumber]

/-- The coordinates of a HIT are within their ranges (R3, R4, R18). -/
def resultInRange : LookupResult → Prop
  | .hit h => h.localX ≤ 2047 ∧ h.localY ≤ 1535 ∧ h.plane ≤ 7 ∧ h.sourceColumn ≤ 4095 ∧ h.sourceRow ≤ 4095
  | _ => True

/-- The numbers of bytes 8 to 18 (R184). -/
def resultLayout : LookupResult → List Nat
  | .outside | .background => List.replicate 11 0
  | .absorbed i k => [i.val, k.val] ++ List.replicate 9 0
  | .hit h => [h.id.val, h.owner.val] ++ highLow h.localX ++ highLow h.localY ++ [h.plane] ++ highLow h.sourceColumn
      ++ highLow h.sourceRow

theorem resultBytes_toNat {r : LookupResult} (small : resultInRange r) : (resultBytes r).map (·.toNat) = resultLayout r := by
  have ids (i : RegionId) (k : ClientId) : [(BitVec.ofNat 8 i.val).toNat, (BitVec.ofNat 8 k.val).toNat] = [i.val, k.val] := by
    have := i.isLt
    have := k.isLt
    rw [toNat_ofNat_byte rfl (by omega), toNat_ofNat_byte rfl (by omega)]
  cases r with
  | outside => rfl
  | background => rfl
  | absorbed i k =>
    simp only [resultBytes, List.map_append, List.map_cons, List.map_nil, ids]
    rfl
  | hit h =>
    obtain ⟨x, y, plane, column, row⟩ := small
    simp only [resultBytes, resultLayout, List.map_append, List.map_cons, List.map_nil, ids]
    rw [twoBytes_toNat (by omega), twoBytes_toNat (by omega), twoBytes_toNat (by omega), twoBytes_toNat (by omega),
      toNat_ofNat_byte rfl (by omega)]

theorem lookupLayout : LookupLayout where
  bytes a touch line small := by
    have first : (BitVec.ofNat 8 (fieldAt a.touchId 4 0 + fieldAt (resultNumber a.result) 3 4)).toNat =
        a.touchId + 16 * resultNumber a.result := by
      have := resultNumber_le a.result
      simp only [fieldAt]
      exact toNat_ofNat_byte (by omega) (by omega)
    have written : (lookupAnswerBytes a).map (·.toNat) = [a.touchId + 16 * resultNumber a.result]
        ++ highLow a.captureFrame.toNat ++ highLow a.captureLine ++ highLow a.listTag.toNat
        ++ (resultBytes a.result).map (·.toNat) := by
      simp only [lookupAnswerBytes, List.map_append, List.map_cons, List.map_nil, first]
      rw [twoBytes_toNat a.captureFrame.isLt, twoBytes_toNat (by omega), twoBytes_toNat a.listTag.isLt]
    rw [written, resultNumber_eq, resultBytes_toNat (by cases e : a.result <;> rw [e] at small <;> exact small)]
    cases a.result <;> rfl
  length a := by
    refine ⟨lookupAnswerBytes_length a, ?_⟩
    have first : (BitVec.ofNat 8 (fieldAt a.touchId 4 0 + fieldAt (resultNumber a.result) 3 4)).toNat < 64 := by
      have := resultNumber_le a.result
      simp only [fieldAt, BitVec.toNat_ofNat]
      omega
    simp only [lookupAnswerBytes, List.cons_append, List.head?_cons, ne_eq, Option.some.injEq]
    intro e
    rw [e] at first
    exact absurd first (by decide)

/-- Settles O9: the five layouts. -/
theorem formatsHold : Obligations.FormatsHold :=
  ⟨requestLayout, answerLayout, fieldLayout, spanLayout, lookupLayout⟩

end Sys2Proof.Machine
end

section
/-! PROOF. The runs of a row and the spans of a line: the runs tile the row, each a maximal stretch of equal pixels, and the spans
of a finished line tile it too (R130 to R134, R136, R137, R139, R144). -/

namespace Sys2Proof.Machine

/-! ### Tilings -/

/-- Runs from pixel `x` on cover each pixel up to `w - 1` once, in increasing order. -/
def RunsTile (x w : Nat) : List Run → Prop
  | [] => x = w
  | r :: rest => r.startX = x ∧ 1 ≤ r.length ∧ RunsTile (x + r.length) w rest

theorem spansTile_map (n : Nat) {x w : Nat} {l : List Run} (h : RunsTile x w l) : spansTile x w (l.map (spanOfRun n)) := by
  induction l generalizing x with
  | nil => exact h
  | cons r rest ih => exact ⟨h.1, h.2.1, ih h.2.2⟩

theorem runsTile_append {x w : Nat} {a b : List Run} : RunsTile x w (a ++ b) ↔ ∃ m, RunsTile x m a ∧ RunsTile m w b := by
  induction a generalizing x with
  | nil => simp [RunsTile]
  | cons r rest ih => simp only [List.cons_append, RunsTile, ih, exists_and_left, and_assoc]

theorem RunsTile.le {x w : Nat} {l : List Run} (h : RunsTile x w l) : x ≤ w := by
  induction l generalizing x with
  | nil => exact Nat.le_of_eq h
  | cons r rest ih => exact (Nat.le_add_right _ _).trans (ih h.2.2)

/-- The lengths of a tiling add up to its width. -/
theorem RunsTile.sum_length {x w : Nat} {l : List Run} (h : RunsTile x w l) : x + (l.map (·.length)).sum = w := by
  induction l generalizing x with
  | nil => exact h
  | cons r rest ih =>
    rw [List.map_cons, List.sum_cons, ← Nat.add_assoc]
    exact ih h.2.2

/-- Each run of a tiling is within it. -/
theorem RunsTile.of_mem {x w : Nat} {l : List Run} (h : RunsTile x w l) {r : Run} (hr : r ∈ l) :
    x ≤ r.startX ∧ 1 ≤ r.length ∧ r.startX + r.length ≤ w := by
  induction l generalizing x with
  | nil => cases hr
  | cons q rest ih =>
    obtain ⟨start, pos, tile⟩ := h
    obtain rfl | later := List.mem_cons.mp hr
    · exact ⟨start.ge, pos, by rw [start]; exact tile.le⟩
    · obtain ⟨low, pos', high⟩ := ih tile later
      exact ⟨(Nat.le_add_right _ _).trans low, pos', high⟩

/-- Each pixel of a tiling is in one of its runs. -/
theorem RunsTile.exists_mem {x w p : Nat} {l : List Run} (h : RunsTile x w l) (low : x ≤ p) (high : p < w) :
    ∃ r ∈ l, r.startX ≤ p ∧ p < r.startX + r.length := by
  induction l generalizing x with
  | nil => exact absurd (lt_of_le_of_lt low high) (by rw [show x = w from h]; exact lt_irrefl w)
  | cons q rest ih =>
    obtain ⟨start, pos, tile⟩ := h
    by_cases first : p < x + q.length
    · exact ⟨q, List.mem_cons_self, start.le.trans low, by rw [start]; exact first⟩
    · obtain ⟨r, hr, within⟩ := ih tile (Nat.not_lt.mp first)
      exact ⟨r, List.mem_cons_of_mem q hr, within⟩

/-- The runs of a tiling come in increasing order. -/
theorem RunsTile.pairwise {x w : Nat} {l : List Run} (h : RunsTile x w l) : l.Pairwise fun a b => a.startX < b.startX := by
  induction l generalizing x with
  | nil => exact .nil
  | cons q rest ih =>
    obtain ⟨start, pos, tile⟩ := h
    refine .cons (fun r hr => ?_) (ih tile)
    have := (tile.of_mem hr).1
    omega

/-! ### The runs of a row -/

/-- A maximal stretch of equal pixels of `f` within the row from `x` of `k` pixels (R132). -/
structure MaximalRun (f : Nat → Pixel) (x k : Nat) (r : Run) : Prop where
  pixels : ∀ p, r.startX ≤ p → p < r.startX + r.length → f p = r.pixel
  left : x < r.startX → f (r.startX - 1) ≠ r.pixel
  right : r.startX + r.length < x + k → f (r.startX + r.length) ≠ r.pixel

/-- The runs of a row of pixels. -/
def rowRuns (f : Nat → Pixel) (x k : Nat) : List Run :=
  runsFrom x ((List.range' x k).map f)

theorem rowRuns_succ (f : Nat → Pixel) (x k : Nat) : rowRuns f x (k + 1) =
    match rowRuns f (x + 1) k with
    | [] => [{ startX := x, length := 1, pixel := f x }]
    | r :: rs =>
      if r.pixel = f x then { startX := x, length := r.length + 1, pixel := f x } :: rs
      else { startX := x, length := 1, pixel := f x } :: r :: rs := rfl

theorem rowRuns_tile (f : Nat → Pixel) (x k : Nat) : RunsTile x (x + k) (rowRuns f x k) := by
  induction k generalizing x with
  | zero => rfl
  | succ k ih =>
    have rest := ih (x + 1)
    rw [rowRuns_succ]
    rw [show x + 1 + k = x + (k + 1) by omega] at rest
    split
    · next e =>
      rw [e] at rest
      exact ⟨rfl, le_rfl, rest⟩
    · next r rs e =>
      rw [e] at rest
      split_ifs
      · obtain ⟨-, -, tile⟩ := rest
        refine ⟨rfl, Nat.le_add_left 1 _, ?_⟩
        rwa [show x + 1 + r.length = x + (r.length + 1) by omega] at tile
      · exact ⟨rfl, le_rfl, rest⟩

/-- A run of a later part of the row that another run separates from pixel `x` is maximal from `x` on too. -/
theorem MaximalRun.extend {f : Nat → Pixel} {x k : Nat} {r : Run} (h : MaximalRun f (x + 1) k r)
    (left : x < r.startX → f (r.startX - 1) ≠ r.pixel) : MaximalRun f x (k + 1) r :=
  ⟨h.pixels, left, fun inside => h.right (by omega)⟩

theorem rowRuns_maximal (f : Nat → Pixel) (x k : Nat) : ∀ r ∈ rowRuns f x k, MaximalRun f x k r := by
  induction k generalizing x with
  | zero => nofun
  | succ k ih =>
    have tile := rowRuns_tile f (x + 1) k
    have rest := ih (x + 1)
    rw [rowRuns_succ]
    split
    · next e =>
      rw [e] at tile
      have none : k = 0 := by
        have : x + 1 = x + 1 + k := tile
        omega
      intro r hr
      rw [List.mem_singleton.mp hr]
      refine ⟨fun p low high => congrArg f (by simp only at low high; omega), fun inside => absurd inside (lt_irrefl x), fun inside => ?_⟩
      simp only at inside
      omega
    · next r rs e =>
      rw [e] at tile rest
      obtain ⟨start, pos, later⟩ := tile
      have separated (q : Run) (hq : q ∈ rs) : MaximalRun f x (k + 1) q := by
        have low := (later.of_mem hq).1
        exact (rest q (List.mem_cons_of_mem r hq)).extend fun _ => (rest q (List.mem_cons_of_mem r hq)).left (by omega)
      have first := rest r List.mem_cons_self
      have next : f (x + 1) = r.pixel := first.pixels (x + 1) start.le (by omega)
      split_ifs with same
      · intro q hq
        obtain rfl | old := List.mem_cons.mp hq
        · refine ⟨fun p low high => ?_, fun inside => absurd inside (lt_irrefl x), fun inside => ?_⟩
          · simp only at low high
            by_cases own : p = x
            · rw [own]
            · rw [first.pixels p (by omega) (by omega), same]
          · simp only at inside
            have right := first.right (by omega)
            rw [same] at right
            rwa [show r.startX + r.length = x + (r.length + 1) by omega] at right
        · exact separated q old
      · intro q hq
        obtain rfl | old := List.mem_cons.mp hq
        · refine ⟨fun p low high => congrArg f (by simp only at low high; omega), fun inside => absurd inside (lt_irrefl x), fun _ => ?_⟩
          rw [next]
          exact same
        obtain rfl | old := List.mem_cons.mp old
        · refine first.extend fun _ => ?_
          rw [show q.startX - 1 = x by omega]
          exact fun eq => same eq.symm
        · exact separated q old

/-- A pixel that fills exactly the stretch from `a` to `b` has one run. -/
theorem rowRuns_block {f : Nat → Pixel} {k a b : Nat} {q : Pixel} (block : ∀ p, p < k → (f p = q ↔ a ≤ p ∧ p < b))
    (nonempty : a < b) (within : b ≤ k) (r : Run) :
    r ∈ rowRuns f 0 k ∧ r.pixel = q ↔ r = { startX := a, length := b - a, pixel := q } := by
  have tile := rowRuns_tile f 0 k
  have only (r : Run) (hr : r ∈ rowRuns f 0 k) (own : r.pixel = q) : r = { startX := a, length := b - a, pixel := q } := by
    obtain ⟨-, pos, high⟩ := tile.of_mem hr
    obtain ⟨pixels, left, right⟩ := rowRuns_maximal f 0 k r hr
    rw [own] at pixels left right
    have first := (block r.startX (by omega)).mp (pixels _ le_rfl (by omega))
    have last := (block (r.startX + r.length - 1) (by omega)).mp (pixels _ (by omega) (by omega))
    have start : r.startX = a := by
      by_contra ne
      exact left (by omega) ((block (r.startX - 1) (by omega)).mpr (by omega))
    have stop : r.startX + r.length = b := by
      by_contra ne
      exact right (by omega) ((block (r.startX + r.length) (by omega)).mpr (by omega))
    cases r
    simp only at own start stop
    subst own start stop
    simp only [Run.mk.injEq, and_true, true_and]
    omega
  refine ⟨fun ⟨hr, own⟩ => only r hr own, ?_⟩
  rintro rfl
  obtain ⟨r, hr, low, high⟩ := tile.exists_mem (p := a) (Nat.zero_le a) (by omega)
  have own : r.pixel = q := ((rowRuns_maximal f 0 k r hr).pixels a low high).symm.trans ((block a (by omega)).mpr ⟨le_rfl, nonempty⟩)
  rw [← only r hr own]
  exact ⟨hr, own⟩

/-! ### The full span list -/

theorem fullRuns_eq (l : ScanList) (n : Nat) : fullRuns l n = rowRuns (fun p => pixelAt l.entries p n) 0 l.panel.width := by
  unfold fullRuns rowRuns
  rw [List.range_eq_range']

theorem fullRuns_tile (l : ScanList) (n : Nat) : RunsTile 0 l.panel.width (fullRuns l n) := by
  have tile := rowRuns_tile (fun p => pixelAt l.entries p n) 0 l.panel.width
  rwa [Nat.zero_add, ← fullRuns_eq] at tile

/-- Written out pixel by pixel, the runs of a row are the row. -/
theorem runsFrom_flatMap (x : Nat) (ps : List Pixel) :
    (runsFrom x ps).flatMap (fun r => List.replicate r.length r.pixel) = ps := by
  induction ps generalizing x with
  | nil => rfl
  | cons p ps ih =>
    have rest := ih (x + 1)
    unfold runsFrom
    split
    · next e =>
      rw [e] at rest
      rw [← rest]
      rfl
    · next r rs e =>
      rw [e, List.flatMap_cons] at rest
      split_ifs with same
      · rw [List.flatMap_cons, List.replicate_succ, List.cons_append, ← same, rest]
      · rw [List.flatMap_cons, List.flatMap_cons, rest]
        rfl

/-- Neighbouring runs differ, and the right one starts where the left one ends. -/
theorem runsFrom_isChain (x : Nat) (ps : List Pixel) :
    (runsFrom x ps).IsChain (fun a b => a.pixel ≠ b.pixel ∧ b.startX = a.startX + a.length)
      ∧ ∀ r ∈ (runsFrom x ps).head?, r.startX = x := by
  induction ps generalizing x with
  | nil => exact ⟨.nil, nofun⟩
  | cons p ps ih =>
    obtain ⟨chain, head⟩ := ih (x + 1)
    unfold runsFrom
    split
    · exact ⟨.singleton _, by simp⟩
    · next r rs e =>
      rw [e] at chain head
      have start : r.startX = x + 1 := head r rfl
      split_ifs with same
      · refine ⟨?_, by simp⟩
        cases rs with
        | nil => exact .singleton _
        | cons q qs =>
          obtain ⟨⟨ne, next⟩, rest⟩ := List.isChain_cons_cons.mp chain
          refine List.isChain_cons_cons.mpr ⟨⟨same ▸ ne, ?_⟩, rest⟩
          simp only
          omega
      · refine ⟨List.isChain_cons_cons.mpr ⟨⟨fun eq => same eq.symm, start⟩, chain⟩, by simp⟩

/-! ### Overflow keeps the tiling -/

theorem segments_flatMap (l : List Run) : (segments l).flatMap segmentRuns = l := by
  induction l with
  | nil => rfl
  | cons r rs ih =>
    unfold segments
    split_ifs
    · rw [List.flatMap_cons, ih]
      rfl
    · split
      · next c rest e =>
        rw [e, List.flatMap_cons] at ih
        rw [List.flatMap_cons, ← ih]
        rfl
      · rw [List.flatMap_cons, ih]
        rfl

/-- The one BACKGROUND span covers what the dropped candidates cover. -/
theorem fillerRun_tile {x w : Nat} {l : List Run} (h : RunsTile x w l) (nonempty : l ≠ []) : RunsTile x w [fillerRun l] := by
  cases l with
  | nil => exact absurd rfl nonempty
  | cons r rest =>
    have sum := h.sum_length
    obtain ⟨start, pos, -⟩ := h
    refine ⟨start, ?_, sum⟩
    simp only [fillerRun, List.map_cons, List.sum_cons]
    omega

/-- Cutting the stretches keeps the tiling, whatever the budget (R137). -/
theorem fillSegments_tile {x w : Nat} {segs : List Segment} (budget : Nat) (h : RunsTile x w (segs.flatMap segmentRuns)) :
    RunsTile x w (fillSegments budget segs) := by
  induction segs generalizing x budget with
  | nil => exact h
  | cons g rest ih =>
    cases g with
    | protectedSpan r => exact ⟨h.1, h.2.1, ih budget h.2.2⟩
    | stretch c =>
      obtain ⟨m, tile, later⟩ := runsTile_append.mp (List.flatMap_cons ▸ h)
      simp only [fillSegments]
      split_ifs with fits
      · exact runsTile_append.mpr ⟨m, tile, ih _ later⟩
      · have tile' : RunsTile x m c := tile
        rw [← List.take_append_drop (budget - stretchCount rest - 1) c] at tile'
        obtain ⟨j, kept, dropped⟩ := runsTile_append.mp tile'
        have nonempty : c.drop (budget - stretchCount rest - 1) ≠ [] := by
          rw [ne_eq, List.drop_eq_nil_iff]
          omega
        refine runsTile_append.mpr ⟨j, kept, ?_⟩
        obtain ⟨start, pos, stop⟩ := fillerRun_tile dropped nonempty
        refine ⟨start, pos, ?_⟩
        rw [show j + (fillerRun (c.drop (budget - stretchCount rest - 1))).length = m from stop]
        exact ih _ later

theorem lineRuns_tile (l : ScanList) (n : Nat) : RunsTile 0 l.panel.width (lineRuns l n) := by
  have full := fullRuns_tile l n
  unfold lineRuns
  split_ifs
  · refine fillSegments_tile _ ?_
    rw [segments_flatMap]
    exact full
  · exact full

/-! ### Owners and underlays -/

theorem pixelAt_bare {entries : List Entry} {p n : Nat} (bare : ∀ e ∈ entries, e.covers p n = false) :
    pixelAt entries p n = backgroundPixel := by
  induction entries with
  | nil => rfl
  | cons e rest ih =>
    rw [pixelAt, bare e List.mem_cons_self, if_neg Bool.false_ne_true]
    exact ih fun f hf => bare f (List.mem_cons_of_mem e hf)

/-- The pixel of the first entry that covers it (R130, R131). -/
theorem pixelAt_split {before after : List Entry} {e : Entry} {p n : Nat} (above : ∀ f ∈ before, f.covers p n = false)
    (covered : e.covers p n = true) : pixelAt (before ++ e :: after) p n =
      { owner := some e
        underlay := if e.opacity = .keyed then some (after.find? fun u => u.covers p n && decide (u.opacity = .solid)) else none } := by
  induction before with
  | nil => rw [List.nil_append, pixelAt, if_pos covered]
  | cons f rest ih =>
    rw [List.cons_append, pixelAt, above f List.mem_cons_self, if_neg Bool.false_ne_true]
    exact ih fun g hg => above g (List.mem_cons_of_mem f hg)

/-- An entry that is not OPAQUE where it covers the pixel is no underlay. -/
theorem notUnderlay {f : Entry} {p n : Nat} (keyed : f.covers p n = true → f.opacity = .keyed) :
    (f.covers p n && decide (f.opacity = .solid)) = false := by
  cases covered : f.covers p n with
  | false => rfl
  | true => simp [keyed covered]

theorem find_underlay_none {after : List Entry} {p n : Nat} (keyed : ∀ f ∈ after, f.covers p n = true → f.opacity = .keyed) :
    (after.find? fun u => u.covers p n && decide (u.opacity = .solid)) = none :=
  List.find?_eq_none.mpr fun f hf => by rw [notUnderlay (keyed f hf)]; exact Bool.false_ne_true

theorem find_underlay_some {between under : List Entry} {u : Entry} {p n : Nat}
    (keyed : ∀ f ∈ between, f.covers p n = true → f.opacity = .keyed) (covered : u.covers p n = true) (solid : u.opacity = .solid) :
    ((between ++ u :: under).find? fun u => u.covers p n && decide (u.opacity = .solid)) = some u := by
  rw [List.find?_append, find_underlay_none keyed, Option.none_or, List.find?_cons_of_pos (by simp [covered, solid])]

/-! ### Spans -/

theorem spanItems_eq (sp : Span) : spanItems sp = match sp.content.bind (·.underlay) with
    | none => [.span sp]
    | some u => [.span sp, .underlay u] := by
  unfold spanItems
  cases sp.content.bind (·.underlay) <;> rfl

/-- Settles O43: the tiling, the maximal runs, the pixel's owner and underlay, and the fields taken from both. -/
theorem linesCoverTheRow : Obligations.LinesCoverTheRow := by
  refine ⟨fun l n => ⟨spansTile_map n (lineRuns_tile l n), runsFrom_flatMap 0 _, (runsFrom_isChain 0 _).1, fun p bare => pixelAt_bare bare, ?_⟩,
    fun l n => ⟨spanOfRun n, rfl, fun r => ⟨fun none => ?_, fun e own => ?_⟩⟩, fun l => rfl, fun sp => ?_⟩
  · intro p e before after split above covered
    rw [split, pixelAt_split above covered]
    refine ⟨rfl, fun solid => ?_, fun keyed none => ?_, fun keyed u between under rest none under solid => ?_⟩
    · rw [solid]
      rfl
    · rw [keyed, find_underlay_none none]
      rfl
    · rw [keyed, rest, find_underlay_some none under solid]
      rfl
  · rw [spanOfRun, none]
    rfl
  · rw [spanOfRun, own]
    cases r.pixel.underlay with
    | none => rfl
    | some u => cases u <;> rfl
  · rw [spanItems_eq] <;> rfl

end Sys2Proof.Machine
end

section
/-! PROOF. Overflow lines: the segments of a line, how the budget fills its stretches, and the protected spans (R135 to R137). -/

namespace Sys2Proof.Machine

/-! ### Segments -/

/-- A segment is a protected span, or a stretch of at least one candidate, none of them protected (R136). -/
def SegmentSound : Segment → Prop
  | .protectedSpan r => protectedRun r = true
  | .stretch c => c ≠ [] ∧ ∀ r ∈ c, protectedRun r = false

/-- Two segments are not both stretches. -/
def NotBothStretches (a b : Segment) : Prop :=
  ¬ ∃ c d, a = .stretch c ∧ b = .stretch d

theorem notBothStretches_of_span_left (r : Run) (b : Segment) : NotBothStretches (.protectedSpan r) b := by
  rintro ⟨c, d, left, -⟩
  cases left

theorem notBothStretches_of_span_right (a : Segment) (r : Run) : NotBothStretches a (.protectedSpan r) := by
  rintro ⟨c, d, -, right⟩
  cases right

theorem notBothStretches_stretch {c : List Run} {b : Segment} (h : NotBothStretches (.stretch c) b) (d : List Run) :
    NotBothStretches (.stretch d) b := by
  rintro ⟨-, e, -, right⟩
  exact h ⟨c, e, rfl, right⟩

theorem segments_sound (l : List Run) : ∀ g ∈ segments l, SegmentSound g := by
  induction l with
  | nil => nofun
  | cons r rs ih =>
    unfold segments
    split_ifs with own
    · exact List.forall_mem_cons.mpr ⟨own, ih⟩
    · have bare : protectedRun r = false := Bool.eq_false_iff.mpr own
      split
      · next c rest e =>
        rw [e] at ih
        obtain ⟨⟨-, first⟩, later⟩ := List.forall_mem_cons.mp ih
        exact List.forall_mem_cons.mpr ⟨⟨List.cons_ne_nil r c, List.forall_mem_cons.mpr ⟨bare, first⟩⟩, later⟩
      · exact List.forall_mem_cons.mpr ⟨⟨List.cons_ne_nil r [], by simpa using bare⟩, ih⟩

theorem segments_isChain (l : List Run) : (segments l).IsChain NotBothStretches := by
  induction l with
  | nil => exact .nil
  | cons r rs ih =>
    unfold segments
    split_ifs
    · exact List.isChain_cons.mpr ⟨fun b _ => notBothStretches_of_span_left r b, ih⟩
    · split
      · next c rest e =>
        rw [e] at ih
        obtain ⟨first, later⟩ := List.isChain_cons.mp ih
        exact List.isChain_cons.mpr ⟨fun b hb => notBothStretches_stretch (first b hb) (r :: c), later⟩
      · next other =>
        refine List.isChain_cons.mpr ⟨fun b hb => ?_, ih⟩
        cases b with
        | protectedSpan q => exact notBothStretches_of_span_right _ q
        | stretch c =>
          obtain ⟨rest, e⟩ := List.head?_eq_some_iff.mp hb
          exact absurd e (other c rest)

theorem segmentsHold_segments (l : List Run) : segmentsHold (segments l) := by
  refine ⟨fun g hg => ?_, segments_isChain l⟩
  have sound := segments_sound l g hg
  cases g <;> exact sound

theorem stretchCount_span (r : Run) (l : List Segment) : stretchCount (.protectedSpan r :: l) = stretchCount l := rfl

theorem stretchCount_stretch (c : List Run) (l : List Segment) : stretchCount (.stretch c :: l) = stretchCount l + 1 := rfl

theorem stretchCount_le_tail (l : List Segment) : stretchCount l ≤ stretchCount l.tail + 1 := by
  cases l with
  | nil => exact Nat.zero_le _
  | cons g rest =>
    cases g with
    | protectedSpan r => exact Nat.le_succ _
    | stretch c => exact le_rfl

/-- Past the first segment, each stretch stands behind a protected span. -/
theorem stretchCount_tail_segments (l : List Run) : stretchCount (segments l).tail ≤ l.countP protectedRun := by
  induction l with
  | nil => exact le_rfl
  | cons r rs ih =>
    unfold segments
    split_ifs with own
    · rw [List.countP_cons_of_pos own]
      exact (stretchCount_le_tail _).trans (Nat.succ_le_succ ih)
    · rw [List.countP_cons_of_neg own]
      split
      · next c rest e =>
        rw [e] at ih
        exact ih
      · next other =>
        cases e : segments rs with
        | nil => exact Nat.zero_le _
        | cons g rest =>
          rw [e] at ih other
          cases g with
          | protectedSpan q => exact ih
          | stretch c => exact absurd rfl (other c rest)

/-! ### Filling the stretches -/

/-- The protected spans and the candidates of some segments. -/
def protectedCount (segs : List Segment) : Nat := (segs.flatMap segmentRuns).countP protectedRun

def candidateCount (segs : List Segment) : Nat := (segs.flatMap segmentRuns).countP fun r => !protectedRun r

theorem counts_span {r : Run} (own : protectedRun r = true) (segs : List Segment) :
    protectedCount (.protectedSpan r :: segs) = protectedCount segs + 1
      ∧ candidateCount (.protectedSpan r :: segs) = candidateCount segs := by
  simp [protectedCount, candidateCount, segmentRuns, own]

theorem counts_stretch {c : List Run} (bare : ∀ r ∈ c, protectedRun r = false) (segs : List Segment) :
    protectedCount (.stretch c :: segs) = protectedCount segs
      ∧ candidateCount (.stretch c :: segs) = c.length + candidateCount segs := by
  have none : c.countP protectedRun = 0 := List.countP_eq_zero.mpr fun r hr => by simp [bare r hr]
  have all : c.countP (fun r => !protectedRun r) = c.length := List.countP_eq_length.mpr fun r hr => by simp [bare r hr]
  simp [protectedCount, candidateCount, segmentRuns, none, all]

theorem stretchCount_le_candidateCount {segs : List Segment} (sound : ∀ g ∈ segs, SegmentSound g) :
    stretchCount segs ≤ candidateCount segs := by
  induction segs with
  | nil => exact Nat.zero_le _
  | cons g rest ih =>
    obtain ⟨first, later⟩ := List.forall_mem_cons.mp sound
    have tail := ih later
    cases g with
    | protectedSpan r => rw [stretchCount_span, (counts_span first rest).2]; exact tail
    | stretch c =>
      obtain ⟨nonempty, bare⟩ := first
      have := List.length_pos_of_ne_nil nonempty
      rw [stretchCount_stretch, (counts_stretch bare rest).2]
      omega

/-- With a place for each stretch, filling uses the budget up unless every candidate fits (R137). -/
theorem length_fillSegments {segs : List Segment} {budget : Nat} (sound : ∀ g ∈ segs, SegmentSound g)
    (places : stretchCount segs ≤ budget) :
    (fillSegments budget segs).length = protectedCount segs + min (candidateCount segs) budget := by
  induction segs generalizing budget with
  | nil => simp [fillSegments, protectedCount, candidateCount]
  | cons g rest ih =>
    obtain ⟨first, later⟩ := List.forall_mem_cons.mp sound
    cases g with
    | protectedSpan r =>
      obtain ⟨spans, candidates⟩ := counts_span first rest
      rw [fillSegments, List.length_cons, ih later places, spans, candidates]
      omega
    | stretch c =>
      obtain ⟨nonempty, bare⟩ := first
      obtain ⟨spans, candidates⟩ := counts_stretch bare rest
      have enough := stretchCount_le_candidateCount later
      rw [stretchCount_stretch] at places
      rw [spans, candidates]
      simp only [fillSegments]
      split_ifs with fits
      · rw [List.length_append, ih later (by omega)]
        omega
      · rw [List.length_append, List.length_cons, List.length_take, ih later (by omega)]
        omega

/-- No candidate and no filler is protected, so that filling keeps the protected spans in order (R136). -/
theorem filter_fillSegments {segs : List Segment} (budget : Nat) (sound : ∀ g ∈ segs, SegmentSound g) :
    (fillSegments budget segs).filter protectedRun = (segs.flatMap segmentRuns).filter protectedRun := by
  induction segs generalizing budget with
  | nil => rfl
  | cons g rest ih =>
    obtain ⟨first, later⟩ := List.forall_mem_cons.mp sound
    cases g with
    | protectedSpan r => simp [fillSegments, segmentRuns, List.filter_cons, ih budget later]
    | stretch c =>
      have none (d : List Run) (sub : d ⊆ c) : d.filter protectedRun = [] :=
        List.filter_eq_nil_iff.mpr fun r hr => by simp [first.2 r (sub hr)]
      have filler (d : List Run) : protectedRun (fillerRun d) = false := rfl
      rw [List.flatMap_cons, List.filter_append, segmentRuns, none c (List.Subset.refl c), List.nil_append]
      simp only [fillSegments]
      split_ifs
      · rw [List.filter_append, none c (List.Subset.refl c), List.nil_append, ih _ later]
      · rw [List.filter_append, none _ (List.take_subset _ c), List.nil_append, List.filter_cons, filler, if_neg Bool.false_ne_true,
          ih _ later]

theorem stretchesFilled_fillSegments (budget : Nat) (segs : List Segment) :
    stretchesFilled budget segs (fillSegments budget segs) := by
  induction segs generalizing budget with
  | nil => rfl
  | cons g rest ih =>
    cases g with
    | protectedSpan r => exact ⟨_, rfl, ih budget⟩
    | stretch c =>
      refine ⟨fun fits => ⟨fillSegments (budget - c.length) rest, ?_, ih _⟩,
        fun more => ⟨_, fillSegments (budget - (budget - stretchCount rest)) rest, ?_, rfl, ih _⟩⟩
      · exact if_pos fits
      · exact if_neg (Nat.not_le.mpr more)

/-! ### Protected spans -/

/-- Two rectangles that cover one pixel overlap. -/
theorem overlaps_of_covers {g h : Geometry} {p n : Nat} (left : g.covers p n = true) (right : h.covers p n = true) :
    g.overlaps h = true := by
  simp only [Geometry.covers, Geometry.overlaps, decide_eq_true_eq] at left right ⊢
  omega

/-- The owner of a pixel is an entry that covers it. -/
theorem covers_of_pixelAt_owner {entries : List Entry} {p n : Nat} {e : Entry} (own : (pixelAt entries p n).owner = some e) :
    e ∈ entries ∧ e.covers p n = true := by
  rw [pixelAt_owner] at own
  exact ⟨List.mem_of_find?_eq_some own, by simpa using List.find?_some (p := fun f : Entry => f.covers p n) own⟩

/-- No entry hides a GUARDED entry of a list: those before it are GUARDED too, and apart from it (R66, R111). -/
theorem ListHolds.pixelAt_guarded {l : ScanList} (h : ListHolds l) {e : Entry} (mem : e ∈ l.entries) (guarded : e.band = .guarded)
    {p n : Nat} (covered : e.covers p n = true) : pixelAt l.entries p n = { owner := some e, underlay := none } := by
  obtain ⟨before, after, split⟩ := List.append_of_mem mem
  have above (f : Entry) (hf : f ∈ before) : f.covers p n = false := by
    have stacked := h.stacked
    have apart := h.apart
    rw [split] at stacked apart
    have order := (List.pairwise_append.mp stacked).2.2 f hf e List.mem_cons_self
    have first : f.band = .guarded := by
      rw [guarded] at order
      cases band : f.band <;> simp [band, bandNumber] at order ⊢
    have disjoint := (List.pairwise_append.mp apart).2.2 f hf e List.mem_cons_self first guarded
    by_contra covers
    rw [overlaps_of_covers (Bool.eq_true_of_not_eq_false covers) covered] at disjoint
    exact Bool.noConfusion disjoint
  rw [split, pixelAt_split above covered, h.solid e mem guarded, if_neg (by decide)]

/-- The span of a GUARDED entry that covers the line: its whole width, without underlay (R135). -/
def guardedRun (e : Entry) : Run :=
  { startX := e.geometry.x, length := e.geometry.width, pixel := { owner := some e, underlay := none } }

theorem ListHolds.mem_fullRuns_guarded {l : ScanList} (h : ListHolds l) {e : Entry} (mem : e ∈ l.entries)
    (guarded : e.band = .guarded) {n : Nat} (top : e.geometry.y ≤ n) (bottom : n < e.geometry.y + e.geometry.height) (r : Run) :
    r ∈ fullRuns l n ∧ r.pixel = { owner := some e, underlay := none } ↔ r = guardedRun e := by
  have valid := (h.valid e mem).1
  simp only [Geometry.valid, decide_eq_true_eq] at valid
  have block (p : Nat) (_ : p < l.panel.width) :
      pixelAt l.entries p n = { owner := some e, underlay := none } ↔ e.geometry.x ≤ p ∧ p < e.geometry.x + e.geometry.width := by
    constructor
    · intro pixel
      have covered := (covers_of_pixelAt_owner (e := e) (congrArg Pixel.owner pixel)).2
      simp only [Entry.covers, Geometry.covers, decide_eq_true_eq] at covered
      omega
    · intro within
      refine h.pixelAt_guarded mem guarded ?_
      simp only [Entry.covers, Geometry.covers, decide_eq_true_eq]
      omega
  rw [fullRuns_eq, rowRuns_block block (by omega) (by omega), guardedRun, Nat.add_sub_cancel_left]

theorem protectedRun_guardedRun {e : Entry} (guarded : e.band = .guarded) : protectedRun (guardedRun e) = true := by
  simp [protectedRun, guardedRun, guarded]

/-- The protected spans of a line are those of the GUARDED entries that cover it (R135). -/
theorem ListHolds.protected_iff {l : ScanList} (h : ListHolds l) (n : Nat) (r : Run) :
    r ∈ fullRuns l n ∧ protectedRun r = true ↔ ∃ e ∈ l.entries, e.band = .guarded ∧ e.geometry.y ≤ n
      ∧ n < e.geometry.y + e.geometry.height ∧ r = guardedRun e := by
  constructor
  · rintro ⟨mem, own⟩
    obtain ⟨e, owner, guarded⟩ := (Option.any_eq_true _ _).mp own
    obtain ⟨-, pos, -⟩ := (fullRuns_tile l n).of_mem mem
    have pixel : pixelAt l.entries r.startX n = r.pixel := by
      rw [fullRuns_eq] at mem
      exact (rowRuns_maximal _ 0 _ r mem).pixels r.startX le_rfl (by omega)
    obtain ⟨entry, covered⟩ := covers_of_pixelAt_owner (by rw [pixel]; exact owner)
    have guarded := of_decide_eq_true guarded
    rw [h.pixelAt_guarded entry guarded covered] at pixel
    simp only [Entry.covers, Geometry.covers, decide_eq_true_eq] at covered
    refine ⟨e, entry, guarded, by omega, by omega, ?_⟩
    exact (h.mem_fullRuns_guarded entry guarded (by omega) (by omega) r).mp ⟨mem, pixel.symm⟩
  · rintro ⟨e, entry, guarded, top, bottom, rfl⟩
    exact ⟨((h.mem_fullRuns_guarded entry guarded top bottom _).mpr rfl).1, protectedRun_guardedRun guarded⟩

theorem ListHolds.protected_length {l : ScanList} (h : ListHolds l) (n : Nat) : ((fullRuns l n).filter protectedRun).length ≤ 4 := by
  have nodup : ((fullRuns l n).filter protectedRun).Nodup :=
    ((fullRuns_tile l n).pairwise.imp fun less eq => absurd (congrArg Run.startX eq) less.ne).filter _
  have sub : (fullRuns l n).filter protectedRun ⊆ (l.entries.filter fun e => decide (e.band = .guarded)).map guardedRun := by
    intro r hr
    obtain ⟨e, entry, guarded, -, -, rfl⟩ := (h.protected_iff n r).mp (List.mem_filter.mp hr)
    exact List.mem_map_of_mem (List.mem_filter.mpr ⟨entry, decide_eq_true guarded⟩)
  calc ((fullRuns l n).filter protectedRun).length
      ≤ ((l.entries.filter fun e => decide (e.band = .guarded)).map guardedRun).length := (nodup.subperm sub).length_le
    _ ≤ 4 := by rw [List.length_map]; exact h.few

/-! ### Overflow lines -/

theorem lineRuns_of_fits {l : ScanList} {n : Nat} (fits : (fullRuns l n).length ≤ 32) : lineRuns l n = fullRuns l n :=
  if_neg fun more => absurd (of_decide_eq_true more) (Nat.not_lt.mpr fits)

theorem lineRuns_of_overflow {l : ScanList} {n : Nat} (more : 32 < (fullRuns l n).length) :
    lineRuns l n = fillSegments (32 - ((fullRuns l n).filter protectedRun).length) (segments (fullRuns l n)) :=
  if_pos (decide_eq_true more)

theorem length_lineRuns_of_overflow {l : ScanList} {n : Nat} (more : 32 < (fullRuns l n).length)
    (few : ((fullRuns l n).filter protectedRun).length ≤ 4) : (lineRuns l n).length = 32 := by
  have stretches := (stretchCount_le_tail _).trans (Nat.succ_le_succ (stretchCount_tail_segments (fullRuns l n)))
  have total := List.length_eq_countP_add_countP protectedRun (l := fullRuns l n)
  rw [← List.countP_eq_length_filter] at few
  rw [lineRuns_of_overflow more, ← List.countP_eq_length_filter, length_fillSegments (segments_sound _) (by omega), protectedCount,
    candidateCount, segments_flatMap]
  simp only [Bool.not_eq_true, Bool.decide_eq_false] at total
  omega

/-- Settles O44: filling uses the whole budget, keeps the protected spans and cuts as R137 says, and each GUARDED entry that covers
the line is one protected span. -/
theorem overflowLinesCut : Obligations.OverflowLinesCut := by
  intro l n
  refine ⟨decide_eq_true_iff, lineRuns_of_fits, fun more few => ?_, fun holds _ => ⟨holds.protected_length n, holds.protected_iff n⟩⟩
  refine ⟨?_, ?_, segments_flatMap _, segmentsHold_segments _, ?_⟩
  · exact (List.length_map _).trans (length_lineRuns_of_overflow more few)
  · rw [lineRuns_of_overflow more, filter_fillSegments _ (segments_sound _), segments_flatMap]
  · rw [lineRuns_of_overflow more]
    exact stretchesFilled_fillSegments _ _

end Sys2Proof.Machine
end

section
/-! PROOF. The Span Queue and the Span Output Port: a finished line, and an accepted word (R138 to R145). -/

namespace Sys2Proof.Machine

/-! ### The word on offer -/

theorem spData_idle {s : State} (port : s.spanPort = .idle) : spData s = none := by
  unfold spData
  rw [port, ite_self]

theorem spData_busy {s : State} {p : SpanPlace} (high : s.resetLow = false) (port : s.spanPort = .sending p ∨ s.spanPort = .aborting p)
    (within : p.sent < (itemWords p.item).length) : spData s = (itemWords p.item)[p.sent]? := by
  have word : spData s = some (placeWord p) := by
    obtain port | port := port <;> simp [spData, spValid, high, port]
  rw [word, placeWord, List.getD_eq_getElem?_getD, List.getElem?_eq_getElem within, Option.getD_some]

/-! ### An accepted word -/

theorem nextPlace_word {p : SpanPlace} (more : p.sent + 1 < (itemWords p.item).length) :
    nextPlace p = some { p with sent := p.sent + 1 } := if_pos more

theorem nextPlace_item {p : SpanPlace} {i : SpanItem} {later : List SpanItem} (last : p.sent + 1 = (itemWords p.item).length)
    (items : p.later = i :: later) : nextPlace p = some { item := i, sent := 0, later := later } := by
  rw [nextPlace, if_neg last.not_lt, items]

theorem nextPlace_last {p : SpanPlace} (last : p.sent + 1 = (itemWords p.item).length) (items : p.later = []) :
    nextPlace p = none := by
  rw [nextPlace, if_neg last.not_lt, items]

theorem acceptWord_idle {s : State} (port : s.spanPort = .idle) : acceptWord s = s := by
  rw [acceptWord, port]

theorem acceptWord_sending_some {s : State} {p q : SpanPlace} (port : s.spanPort = .sending p) (next : nextPlace p = some q) :
    acceptWord s = { s with spanPort := .sending q } := by
  rw [acceptWord, port]
  simp only [next]

theorem acceptWord_sending_none {s : State} {p : SpanPlace} (port : s.spanPort = .sending p) (next : nextPlace p = none) :
    acceptWord s = beginLine { s with spanQueue := s.spanQueue.tail } := by
  rw [acceptWord, port]
  simp only [next]

theorem acceptWord_aborting_some {s : State} {p q : SpanPlace} (port : s.spanPort = .aborting p) (next : nextPlace p = some q) :
    acceptWord s = { s with spanPort := .aborting q } := by
  rw [acceptWord, port]
  simp only [next]

theorem acceptWord_aborting_none {s : State} {p : SpanPlace} (port : s.spanPort = .aborting p) (next : nextPlace p = none) :
    acceptWord s = beginLine s := by
  rw [acceptWord, port]
  simp only [next]

theorem beginLine_eq (s : State) : beginLine s = { s with spanPort := match s.spanQueue with
    | [] => .idle
    | l :: _ => .sending (linePlace l) } := by
  unfold beginLine
  cases s.spanQueue <;> rfl

/-- Settles O42: the next word, the next item, and the next line, for a port that sends and one that aborts. -/
theorem spanWordTaken : Obligations.SpanWordTaken := by
  intro s high
  have run : exec .spanWordAccepted s = .next (acceptWord s) := whileHigh_high (f := acceptWord) high
  refine ⟨fun idle => ⟨spData_idle idle, by rw [run, acceptWord_idle idle]⟩, fun p aborting port within => ?_⟩
  rw [run]
  cases aborting with
  | false =>
    refine ⟨spData_busy high (.inl port) within, fun more => ?_, fun last => ⟨fun it later items => ?_, fun items => ?_⟩⟩
    · rw [acceptWord_sending_some port (nextPlace_word more)]
      rfl
    · rw [acceptWord_sending_some port (nextPlace_item last items)]
      rfl
    · rw [acceptWord_sending_none port (nextPlace_last last items), beginLine_eq]
      rfl
  | true =>
    refine ⟨spData_busy high (.inr port) within, fun more => ?_, fun last => ⟨fun it later items => ?_, fun items => ?_⟩⟩
    · rw [acceptWord_aborting_some port (nextPlace_word more)]
      rfl
    · rw [acceptWord_aborting_some port (nextPlace_item last items)]
      rfl
    · rw [acceptWord_aborting_none port (nextPlace_last last items), beginLine_eq]
      rfl

/-! ### A finished line -/

/-- The state that the finished line joins (R138, R139). -/
def lineFinished (l : Line) (s : State) : State :=
  { s with builder := .idle, flags := { s.flags with spanOverflow := s.flags.spanOverflow || l.overflow } }

theorem overflowFlag_eq (overflow : Bool) (s : State) : (if overflow then s.setSpanOverflow else s)
    = { s with flags := { s.flags with spanOverflow := s.flags.spanOverflow || overflow } } := by
  cases overflow with
  | false => rw [Bool.or_false, if_neg Bool.false_ne_true]
  | true => rw [Bool.or_true, if_pos rfl, State.setSpanOverflow]

theorem completeBuild_building {s : State} {n : Nat} {list : ListName} (build : s.builder = .building n list) :
    completeBuild s = queueLine (buildLine (s.scanList list) n) (lineFinished (buildLine (s.scanList list) n) s) := by
  unfold completeBuild
  rw [build]
  dsimp only
  rw [overflowFlag_eq, lineFinished]

theorem queueLine_idle {l : Line} {s : State} (port : s.spanPort = .idle) (empty : s.spanQueue = []) :
    queueLine l s = { s with spanQueue := [l], spanPort := .sending (linePlace l) } := by
  simp [queueLine, empty, port, beginLine, Config.spanQueueSize]

theorem queueLine_room {l : Line} {s : State} (port : s.spanPort ≠ .idle) (room : s.spanQueue.length < 2) :
    queueLine l s = { s with spanQueue := s.spanQueue ++ [l] } := by
  unfold queueLine
  rw [if_pos (show s.spanQueue.length < Config.spanQueueSize from room)]
  dsimp only
  split
  · next idle => exact absurd idle port
  · rfl

theorem abortLine_ne_idle (l : Line) {port : SpanPort} (busy : port ≠ .idle) : abortLine l port ≠ .idle := by
  cases port with
  | idle => exact absurd rfl busy
  | sending p => exact SpanPort.noConfusion
  | aborting p => exact SpanPort.noConfusion

theorem queueLine_full {l a b : Line} {s : State} (port : s.spanPort ≠ .idle) (full : s.spanQueue = [a, b]) :
    queueLine l s = { s with
      flags := { s.flags with lineDropped := true }, spanQueue := [b, l], spanPort := abortLine a s.spanPort } := by
  have discarded : discardOlder s = { s.setLineDropped with spanQueue := [b], spanPort := abortLine a s.spanPort } := by
    rw [discardOlder, full]
  unfold queueLine
  rw [if_neg (show ¬ s.spanQueue.length < Config.spanQueueSize by rw [full]; exact Nat.lt_irrefl 2), discarded]
  dsimp only
  split
  · next idle => exact absurd idle (abortLine_ne_idle a port)
  · rfl

/-- Settles O41: an IDLE port, room in the queue, and a full queue. -/
theorem buildCompletes : Obligations.BuildCompletes := by
  intro s n list high holds build l flags
  have run : exec .buildComplete s = .next (queueLine l (lineFinished l s)) :=
    (whileHigh_high (f := completeBuild) high).trans (congrArg _ (completeBuild_building build))
  refine ⟨fun idle => ?_, fun busy room => ?_, fun a b full => ?_⟩
  · have empty : s.spanQueue = [] := by
      unfold PortHolds at holds
      rwa [idle] at holds
    rw [run, queueLine_idle (s := lineFinished l s) idle empty]
    rfl
  · rw [run, queueLine_room (s := lineFinished l s) busy room]
    rfl
  · have busy : s.spanPort ≠ .idle := by
      intro idle
      unfold PortHolds at holds
      rw [idle, full] at holds
      cases holds
    rw [run, queueLine_full (s := lineFinished l s) busy full, show (lineFinished l s).spanPort = s.spanPort from rfl]
    cases s.spanPort <;> rfl

end Sys2Proof.Machine
end

section
/-! PROOF. What one move does to a band list (R49). -/

namespace Sys2Proof.Machine

theorem insertBefore_split {r : RegionId} (x : RegionId) {l : List RegionId} (h : r ∈ l) :
    ∃ before after, insertBefore r x l = before ++ x :: r :: after := by
  induction l with
  | nil => cases h
  | cons y ys ih =>
    rw [insertBefore]
    split_ifs with same
    · exact ⟨[], ys, by rw [same]; rfl⟩
    · obtain ⟨before, after, split⟩ := ih ((List.mem_cons.mp h).resolve_left fun e => same e.symm)
      exact ⟨y :: before, after, by rw [split]; rfl⟩

theorem insertAfter_split {r : RegionId} (x : RegionId) {l : List RegionId} (h : r ∈ l) :
    ∃ before after, insertAfter r x l = before ++ r :: x :: after := by
  induction l with
  | nil => cases h
  | cons y ys ih =>
    rw [insertAfter]
    split_ifs with same
    · exact ⟨[], ys, by rw [same]; rfl⟩
    · obtain ⟨before, after, split⟩ := ih ((List.mem_cons.mp h).resolve_left fun e => same e.symm)
      exact ⟨y :: before, after, by rw [split]; rfl⟩

theorem erase_insertBefore {x : RegionId} (r : RegionId) {l : List RegionId} (h : x ∉ l) : (insertBefore r x l).erase x = l := by
  induction l with
  | nil => exact List.erase_cons_head _ _
  | cons y ys ih =>
    obtain ⟨ne, later⟩ := not_or.mp (List.mem_cons.not.mp h)
    rw [insertBefore]
    split_ifs
    · exact List.erase_cons_head _ _
    · rw [List.erase_cons_tail (by simpa using fun e => ne e.symm), ih later]

theorem erase_insertAfter {x : RegionId} (r : RegionId) {l : List RegionId} (h : x ∉ l) : (insertAfter r x l).erase x = l := by
  induction l with
  | nil => exact List.erase_cons_head _ _
  | cons y ys ih =>
    obtain ⟨ne, later⟩ := not_or.mp (List.mem_cons.not.mp h)
    rw [insertAfter]
    have behind (zs : List RegionId) : (y :: zs).erase x = y :: zs.erase x :=
      List.erase_cons_tail (by simpa using fun e => ne e.symm)
    split_ifs
    · rw [behind, List.erase_cons_head]
    · rw [behind, ih later]

/-- A move leaves the order of the other ids (R49). -/
theorem erase_placeSubject (p : Placement) {x : RegionId} {l : List RegionId} (nodup : l.Nodup) :
    (placeSubject p x l).erase x = l.erase x := by
  have gone : x ∉ l.erase x := nodup.not_mem_erase
  cases p with
  | top => exact List.erase_cons_head _ _
  | bottom =>
    rw [placeSubject, List.erase_append_right _ gone, List.erase_cons_head, List.append_nil]
  | above r => exact erase_insertBefore r gone
  | below r => exact erase_insertAfter r gone

/-- Settles O23: a move permutes the list, keeps the others' order, and puts its subject in its place. -/
theorem movesPlaceSubject : Obligations.MovesPlaceSubject := by
  intro x l nodup mem
  refine ⟨fun p _ => ?_, rfl, List.getLast?_concat, fun r ne hr => ?_⟩
  · have perm := placeSubject_perm p mem
    exact ⟨perm.nodup_iff.mpr nodup, erase_placeSubject p nodup, fun i => perm.mem_iff⟩
  · have kept : r ∈ l.erase x := (List.mem_erase_of_ne ne).mpr hr
    exact ⟨insertBefore_split x kept, insertAfter_split x kept⟩

end Sys2Proof.Machine
end

section
/-! PROOF. The commands of the Lease Monitor: a claim, a load, a stop, and the decrement at a FRAME_START (R92 to R96). -/

namespace Sys2Proof.Machine

/-! ### The messages -/

theorem takeClaim_eq (k : ClientId) (s : State) : takeClaim k s = { s with counters := (takeClaim k s).counters } := by
  unfold takeClaim
  split <;> rfl

/-- Settles O35: the oldest message is taken as the Lease Monitor takes messages of its kind. -/
theorem leaseMessagesTaken : Obligations.LeaseMessagesTaken := by
  intro s rest k high
  refine ⟨fun inbox => ⟨takeClaim k { s with leaseInbox := rest }, ?_, ?_, fun j => counter_takeClaim k j _⟩,
    fun p inbox => ⟨takeLoad k p { s with leaseInbox := rest }, ?_, rfl, fun j => counter_takeLoad k j p _⟩,
    fun inbox => ⟨takeStop k { s with leaseInbox := rest }, ?_, rfl, fun j => counter_takeStop k j _, fun j => ?_⟩⟩
  · refine (whileHigh_high (f := claimWaiting) high).trans (congrArg _ ?_)
    rw [claimWaiting, inbox]
  · rw [takeClaim_eq]
  · refine (whileHigh_high (f := loadWaiting) high).trans (congrArg _ ?_)
    rw [loadWaiting, inbox]
  · refine (whileHigh_high (f := stopWaiting) high).trans (congrArg _ ?_)
    rw [stopWaiting, inbox]
  · rw [takeStop_lapsePending, List.mem_filter, decide_eq_true_eq]

/-! ### The decrement -/

/-- LEASE_LAPSE is set exactly when a counter stops (R94). -/
theorem expireCounters_flags (s : State) : (expireCounters s).flags = { s.flags with
    leaseLapse := s.flags.leaseLapse || decide (∃ j, (s.counter j).running = true ∧ (s.counter j).count = 0) } := by
  have some : (List.finRange 16).any (counterSpent s)
      = decide (∃ j, (s.counter j).running = true ∧ (s.counter j).count = 0) :=
    Bool.eq_iff_iff.mpr (by simp [counterSpent])
  unfold expireCounters
  rw [some]

theorem countDown_flags (s : State) : (countDown s).flags = { s.flags with
    leaseLapse := s.flags.leaseLapse || decide (∃ j, (s.counter j).running = true ∧ (s.counter j).count ≤ 1) } := by
  have spent (c : LeaseCounter) :
      ((if c.running then { c with count := c.count - 1 } else c).running = true
        ∧ (if c.running then { c with count := c.count - 1 } else c).count = 0) ↔ c.running = true ∧ c.count ≤ 1 := by
    by_cases running : c.running = true <;> simp [running, Nat.sub_eq_zero_iff_le]
  unfold countDown
  rw [expireCounters_flags]
  simp only [counter_mapCounters, spent, State.mapCounters_flags]

theorem expireCounters_eq (s : State) : expireCounters s = { s with
    counters := (expireCounters s).counters, lapsePending := (expireCounters s).lapsePending
    flags := (expireCounters s).flags } := by
  cases s; rfl

theorem countDown_eq (s : State) : countDown s = { s with
    counters := (countDown s).counters, lapsePending := (countDown s).lapsePending, flags := (countDown s).flags } := by
  cases s; rfl

/-- The decrement leaves no counter RUNNING at 0 (R92). -/
theorem counterSpent_countDown (s : State) (k : ClientId) : counterSpent (countDown s) k = false := by
  unfold counterSpent
  rw [counter_countDown, decremented]
  split_ifs with running last
  · rfl
  · rw [running, Bool.true_and]
    exact decide_eq_false (show ¬ (s.counter k).count - 1 = 0 by omega)
  · rw [Bool.eq_false_iff.mpr running, Bool.false_and]

theorem clientsWhere_mem (p : ClientId → Bool) : (clientsWhere fun k => decide (k ∈ clientsWhere p)) = clientsWhere p := by
  simp [clientsWhere]

theorem expireCounters_lapsePending (s : State) :
    (expireCounters s).lapsePending = clientsWhere fun k => decide (k ∈ s.lapsePending) || counterSpent s k := rfl

/-- With no counter RUNNING at 0 LEASE_EXPIRY finds nothing to do. -/
theorem expireCounters_of_none {s : State} {p : ClientId → Bool} (none : ∀ k, counterSpent s k = false)
    (set : s.lapsePending = clientsWhere p) :
    expireCounters s = s := by
  have counters : (expireCounters s).counters = s.counters :=
    counters_ext fun k => by rw [counter_expireCounters, none k, if_neg Bool.false_ne_true]
  have pending : (expireCounters s).lapsePending = s.lapsePending := by
    simp only [expireCounters_lapsePending, none, Bool.or_false]
    rw [set, clientsWhere_mem]
  have flags : (expireCounters s).flags = s.flags := by
    have nothing : (List.finRange 16).any (counterSpent s) = false := by simp [none]
    unfold expireCounters
    rw [nothing, Bool.or_false]
  rw [expireCounters_eq, counters, pending, flags]

/-- Settles O36: one decrement, after which no counter is spent, and the same work in any state. -/
theorem leaseCountsAndExpires : Obligations.LeaseCountsAndExpires := by
  intro s high
  refine ⟨⟨countDown s, whileHigh_high high, ?_, counter_countDown s, mem_lapsePending_countDown s, ?_⟩,
    expireCounters s, whileHigh_high high, ?_, fun j => ?_, fun j => ?_⟩
  · rw [← countDown_flags]
    exact countDown_eq s
  · refine (whileHigh_high (f := expireCounters) ((countDown_resetLow s).trans high)).trans (congrArg _ ?_)
    exact expireCounters_of_none (counterSpent_countDown s) (expireCounters_lapsePending _)
  · rw [← expireCounters_flags]
    exact expireCounters_eq s
  · rw [counter_expireCounters]
    simp only [counterSpent, Bool.and_eq_true, decide_eq_true_eq]
  · rw [mem_lapsePending_expireCounters]
    simp only [counterSpent, Bool.and_eq_true, decide_eq_true_eq]

end Sys2Proof.Machine
end

section
/-! PROOF. Requests that pass the common checks: the kind's own work from the state `accepted`, and the simple kinds, RENEW,
QUERY_REGION and SET_PANEL (R19, R40, R61, R78 to R80, R108, R109). -/

namespace Sys2Proof.Machine

/-! ### From a command to the kind's own work -/

theorem exec_request {s : State} {kind : RequestKind} {m : List Word} {rest : List (List Word)} {c : Instr}
    {own : List Word → Header → State → State} (command : exec c s = whileHigh (runRequest kind own) s)
    (takes : Takes s (some kind) m rest) (passes : Passes s kind (messageHeader m)) :
    exec c s = .next (own m (messageHeader m) (inHand s rest (messageHeader m))) := by
  rw [command, whileHigh_high takes.notReset, runRequest_of_passes own takes passes]

/-- The answer to a request, as the statements write it. -/
theorem answerRequest_eq {kind : RequestKind} {h : Header} {r : Reply} {u v : State}
    (same : { u with engine := .free } = { v with engine := .free }) :
    answerRequest kind h r u = placed (replyTo (requestKindNumber kind) h r.code r.detail r.fields) v :=
  (answerRequest_eq_placed kind h r u).trans (placed_of_eq rfl same)

theorem answerRequest_inHand (kind : RequestKind) (h : Header) (r : Reply) (s : State) (rest : List (List Word)) (g : Header) :
    answerRequest kind h r (inHand s rest g) = placed (replyTo (requestKindNumber kind) h r.code r.detail r.fields) (accepted s rest g) :=
  answerRequest_eq rfl

/-! ### The order of the group checks (R6) -/

theorem any_invalid_eq_false {α : Type} {o : Option α} {valid : α → Bool} (all : ∀ x, o = some x → valid x = true) :
    (o.any fun x => !valid x) = false := by
  cases o with
  | none => rfl
  | some x => simp [all x rfl]

theorem failing_geometry {g : Groups} {p : Panel} {b : Band} (bad : ∃ x, g.geometry = some x ∧ x.valid p = false) :
    g.failing p b = some .geometry := by
  obtain ⟨x, own, bad⟩ := bad
  simp [Groups.failing, own, bad]

theorem failing_source {g : Groups} {p : Panel} {b : Band} (geometry : ∀ x, g.geometry = some x → x.valid p = true)
    (bad : ∃ x, g.source = some x ∧ x.valid = false) : g.failing p b = some .source := by
  obtain ⟨x, own, bad⟩ := bad
  simp [Groups.failing, any_invalid_eq_false geometry, own, bad]

theorem failing_appearance {g : Groups} {p : Panel} {b : Band} (geometry : ∀ x, g.geometry = some x → x.valid p = true)
    (source : ∀ x, g.source = some x → x.valid = true) (bad : ∃ x, g.appearance = some x ∧ x.valid b = false) :
    g.failing p b = some .appearance := by
  obtain ⟨x, own, bad⟩ := bad
  simp [Groups.failing, any_invalid_eq_false geometry, any_invalid_eq_false source, own, bad]

/-! ### RENEW -/

theorem exec_renew {s : State} {m : List Word} {rest : List (List Word)} (takes : Takes s (some .renew) m rest)
    (passes : Passes s .renew (messageHeader m)) :
    exec .renew s = .next (placed (replyTo 7 (messageHeader m) .ok .none .none) (accepted s rest (messageHeader m))) :=
  (exec_request rfl takes passes).trans (congrArg _ (answerRequest_inHand .renew _ okReply s rest _))

/-! ### QUERY_REGION -/

/-- An element stands behind those before its first place. -/
theorem idxOf_split {i : RegionId} {before after : List RegionId} (first : i ∉ before) :
    (before ++ i :: after).idxOf i = before.length := by
  rw [List.idxOf_append_of_notMem first, List.idxOf_cons_self, Nat.add_zero]

/-- Settles O24: a number above 63, and the report of a region. -/
theorem queryRegionReports : Obligations.QueryRegionReports := by
  intro s m rest h n takes passes
  have run := exec_request (c := .queryRegion) rfl takes passes
  rw [ownQueryRegion, lowNumber_eq] at run
  refine ⟨fun high => ?_, fun i number => ⟨regionReport s i h.client, ?_, rfl, rfl, decide_eq_true_iff, ?_, ?_⟩⟩
  · rw [run, regionNumber_none high]
    exact congrArg _ (answerRequest_inHand .queryRegion h (refusal .badField) s rest h)
  · have report : regionReport (inHand s rest h) i h.client = regionReport s i h.client := by
      simp [regionReport, positionInBand]
    rw [run, show (messageWord m 3).toNat % 256 = i.val from number, regionNumber_val]
    dsimp only
    rw [report]
    exact congrArg _ (answerRequest_inHand .queryRegion h _ s rest h)
  · intro g before after live split first
    rw [regionReport, positionInBand, live]
    exact congrArg (· + 1) (by rw [split, idxOf_split first])
  · intro live
    rw [regionReport, positionInBand]
    cases region : s.region i with
    | live g => rw [region] at live; cases live
    | _ => rfl

/-! ### SET_PANEL -/

/-- Whether a region is in use (R108). -/
theorem idsWhere_used_isEmpty (s : State) : (s.idsWhere fun r => !isFree r).isEmpty = true ↔ ∀ i, s.region i = .free := by
  have free (r : Region) : isFree r = true ↔ r = .free := by cases r <;> simp [isFree]
  simp [State.idsWhere, List.filter_eq_nil_iff, free]

/-- Settles O31: the size out of range, a region in use, and the new size. -/
theorem setPanelSets : Obligations.SetPanelSets := by
  intro s m rest h w t inRange takes passes
  have run := exec_request (c := .setPanel) rfl takes passes
  have valid : ({ width := messageNumber m 3, height := messageNumber m 4 } : Panel).valid = true ↔ inRange := decide_eq_true_iff
  have used : ((inHand s rest h).idsWhere fun r => !isFree r).isEmpty = true ↔ ∀ i, s.region i = .free := by
    rw [idsWhere_used_isEmpty]
    exact forall_congr' fun i => by rw [inHand_region]
  refine ⟨fun out => ?_, fun range some => ?_, fun range none => ?_⟩
  · rw [run, ownSetPanel, if_pos (by rw [Bool.eq_false_iff.mpr fun v => out (valid.mp v)]; rfl)]
    exact congrArg _ (answerRequest_inHand .setPanel h (refusal .badField) s rest h)
  · obtain ⟨i, busy⟩ := some
    rw [run, ownSetPanel, if_neg (by rw [valid.mpr range]; exact Bool.false_ne_true), if_neg fun empty => busy (used.mp empty i)]
    exact congrArg _ (answerRequest_inHand .setPanel h (refusal .panelInUse) s rest h)
  · rw [run, ownSetPanel, if_neg (by rw [valid.mpr range]; exact Bool.false_ne_true), if_pos (used.mpr none)]
    exact congrArg _ (answerRequest_eq rfl)

end Sys2Proof.Machine
end

section
/-! PROOF. CREATE, EDIT and RESTACK: their checks in order, and what they do when they pass (R7 to R9, R24, R44 to R46, R54 to R57). -/

namespace Sys2Proof.Machine

/-! ### The checks of a CREATE (R54) -/

theorem clientQuota_eq {s : State} {k : ClientId} {tm : Terms} (terms : (s.client k).terms = some tm) : clientQuota s k = tm.quota := by
  rw [clientQuota, terms]

theorem clientClass_eq {s : State} {k : ClientId} {tm : Terms} (terms : (s.client k).terms = some tm) : clientClass s k = tm.cls := by
  rw [clientClass, terms]

theorem createChecks_inHand (m : List Word) (k : ClientId) (s : State) (rest : List (List Word)) (h : Header) :
    createChecks m k (inHand s rest h) = createChecks m k s := by
  have quota : clientQuota (inHand s rest h) k = clientQuota s k := by rw [clientQuota, clientQuota, inHand_client]
  have cls : clientClass (inHand s rest h) k = clientClass s k := by rw [clientClass, clientClass, inHand_client]
  rw [createChecks, createChecks, inHand_panel, inHand_client, inHand_lowestFree, inHand_guardedCount, quota, cls]

/-- The first two checks passed (R54). -/
structure CreateOpen (s : State) (k : ClientId) (tm : Terms) : Prop where
  terms : (s.client k).terms = some tm
  panel : ¬ (s.panel.width = 0 ∧ s.panel.height = 0)
  quota : (s.client k).owned ≠ tm.quota

section
variable {m : List Word} {s : State} {k : ClientId} {tm : Terms}

theorem createChecks_noPanel (panel : s.panel.width = 0 ∧ s.panel.height = 0) : createChecks m k s = .error (refusal .noPanel) :=
  if_pos (decide_eq_true panel)

theorem createChecks_quota (terms : (s.client k).terms = some tm) (panel : ¬ (s.panel.width = 0 ∧ s.panel.height = 0))
    (quota : (s.client k).owned = tm.quota) : createChecks m k s = .error (refusal .quota) := by
  rw [createChecks, if_neg (show ¬ s.panel.unconfigured = true from fun e => panel (of_decide_eq_true e)), clientQuota_eq terms,
    if_pos quota]

theorem createChecks_noRegion (opened : CreateOpen s k tm) (none : lowestFree s = none) :
    createChecks m k s = .error (refusal .noRegion) := by
  rw [createChecks, if_neg (show ¬ s.panel.unconfigured = true from fun e => opened.panel (of_decide_eq_true e)),
    clientQuota_eq opened.terms, if_neg opened.quota, none]

theorem createChecks_guardLimit {i : RegionId} (opened : CreateOpen s k tm) (free : lowestFree s = some i)
    (full : tm.cls = .guarded ∧ 4 ≤ guardedCount s) : createChecks m k s = .error (refusal .guardLimit) := by
  rw [createChecks, if_neg (show ¬ s.panel.unconfigured = true from fun e => opened.panel (of_decide_eq_true e)),
    clientQuota_eq opened.terms, if_neg opened.quota, free, clientClass_eq opened.terms]
  exact if_pos full

/-- With room the groups decide (R54 checks 5 to 7). -/
theorem createChecks_groups {i : RegionId} (opened : CreateOpen s k tm) (free : lowestFree s = some i)
    (room : tm.cls = .guarded → guardedCount s < 4) : createChecks m k s =
      ((Groups.ofPart (createPart m)).failing s.panel tm.cls).elim (.ok i) fun d => .error (badGroup d) := by
  rw [createChecks, if_neg (show ¬ s.panel.unconfigured = true from fun e => opened.panel (of_decide_eq_true e)),
    clientQuota_eq opened.terms, if_neg opened.quota, free, clientClass_eq opened.terms]
  refine (if_neg fun full => absurd (room full.1) (Nat.not_lt.mpr full.2)).trans ?_
  cases (Groups.ofPart (createPart m)).failing s.panel tm.cls <;> rfl

end

theorem isFree_iff (r : Region) : isFree r = true ↔ r = .free := by
  cases r <;> simp [isFree]

theorem lowestFree_eq_find (s : State) : lowestFree s = Fin.find? fun i => isFree (s.region i) :=
  Fin.find?_eq_find?_finRange.symm

theorem lowestFree_of_first {s : State} {i : RegionId} (free : s.region i = .free) (first : ∀ j, j < i → s.region j ≠ .free) :
    lowestFree s = some i := by
  rw [lowestFree_eq_find, Fin.find?_eq_some_iff, isFree_iff]
  exact ⟨free, fun j less => Bool.eq_false_iff.mpr fun e => first j less ((isFree_iff _).mp e)⟩

theorem exists_lowestFree {s : State} (free : ∃ i, s.region i = .free) : ∃ i, lowestFree s = some i := by
  obtain ⟨i, free⟩ := free
  rw [lowestFree_eq_find]
  exact Option.isSome_iff_exists.mp (Fin.isSome_find?_of_eq_true (p := fun i => isFree (s.region i)) ((isFree_iff _).mpr free))

theorem lowestFree_eq_none {s : State} (used : ¬ ∃ i, s.region i = .free) : lowestFree s = none := by
  rw [lowestFree_eq_find, Fin.find?_eq_none_iff]
  exact fun i => Bool.eq_false_iff.mpr fun e => used ⟨i, (isFree_iff _).mp e⟩

/-! ### CREATE -/

section
variable {s : State} {m : List Word} {rest : List (List Word)}

theorem exec_create_refused {r : Reply} (takes : Takes s (some .create) m rest) (passes : Passes s .create (messageHeader m))
    (checks : createChecks m (messageHeader m).client s = .error r) :
    exec .create s = .next (placed (replyTo 1 (messageHeader m) r.code r.detail r.fields) (accepted s rest (messageHeader m))) := by
  refine (exec_request (c := .create) rfl takes passes).trans (congrArg _ ?_)
  rw [ownCreate, createChecks_inHand, checks]
  exact answerRequest_inHand .create _ r s rest _

theorem reserveRecord_inHand {i : RegionId} {h : Header} {tm : Terms} {p : Part} (terms : (s.client h.client).terms = some tm) :
    reserveRecord i h.client p (inHand s rest h) = { inHand s rest h with
      regions := s.regions.set i (.reserved
        { owner := h.client, band := tm.cls, staged := p
          order := ((List.finRange 64).filter fun j => isReservedOf h.client (s.region j)).length + 1 })
      clients := s.clients.set h.client { s.client h.client with owned := (s.client h.client).owned + 1 } } := by
  have cls : clientClass (inHand s rest h) h.client = tm.cls := clientClass_eq (by rw [inHand_client, terms])
  rw [reserveRecord, updClient_eq, setRegion_eq, cls, inHand_reservedCount]
  simp only [inHand_regions, inHand_clients, State.client, reservedCount, State.idsWhere]

end

/-- Settles O12: the checks pass, and the lowest FREE record is reserved. -/
theorem createReserves : Obligations.CreateReserves := by
  intro s m rest tm i h k takes passes terms panel quota free first guard valid
  have checks : createChecks m k s = .ok i := by
    rw [createChecks_groups ⟨terms, panel, quota⟩ (lowestFree_of_first free first) guard, failing_ofPart.mpr valid]
    rfl
  refine (exec_request (c := .create) rfl takes passes).trans (congrArg _ ?_)
  rw [ownCreate, createChecks_inHand, checks]
  refine answerRequest_eq ?_
  rw [reserveRecord_inHand terms]
  rfl

/-- Settles O13: each check that fails, with those before it passed. -/
theorem createRefused : Obligations.CreateRefused := by
  intro s m rest tm h k part refused configured belowQuota someFree guardRoom takes passes terms
  have refuse {r : Reply} (checks : createChecks m k s = .error r) := exec_create_refused takes passes checks
  have groups {d : Detail} (panel : configured) (quota : belowQuota) (free : someFree) (guard : guardRoom)
      (bad : (Groups.ofPart part).failing s.panel tm.cls = some d) : refused .badField d := by
    obtain ⟨i, lowest⟩ := exists_lowestFree free
    refine refuse (r := badGroup d) ?_
    rw [createChecks_groups ⟨terms, panel, quota⟩ lowest guard, bad]
    rfl
  refine ⟨fun panel => ?_, fun panel quota => ?_, fun panel quota free => ?_, fun panel quota free guard => ?_,
    fun panel quota free guard geometry => ?_, fun panel quota free guard geometry source => ?_,
    fun panel quota free guard geometry source appearance => ?_⟩
  · exact refuse (createChecks_noPanel (not_not.mp panel))
  · exact refuse (createChecks_quota terms panel (not_not.mp quota))
  · exact refuse (createChecks_noRegion ⟨terms, panel, quota⟩ (lowestFree_eq_none free))
  · obtain ⟨i, lowest⟩ := exists_lowestFree free
    obtain ⟨guarded, full⟩ := Classical.not_imp.mp guard
    exact refuse (createChecks_guardLimit ⟨terms, panel, quota⟩ lowest ⟨guarded, Nat.not_lt.mp full⟩)
  · exact groups panel quota free guard (failing_geometry ⟨_, rfl, geometry⟩)
  · exact groups panel quota free guard (failing_source (fun x e => by cases e; exact geometry) ⟨_, rfl, source⟩)
  · exact groups panel quota free guard
      (failing_appearance (fun x e => by cases e; exact geometry) (fun x e => by cases e; exact source) ⟨_, rfl, appearance⟩)

/-! ### EDIT -/

section
variable {s : State} {m : List Word} {rest : List (List Word)} {k : ClientId}

theorem editChecks_inHand (m : List Word) (k : ClientId) (s : State) (rest : List (List Word)) (h : Header) :
    editChecks m k (inHand s rest h) = editChecks m k s := by
  simp only [editChecks, inHand_region, inHand_panel]

theorem editChecks_number (high : 64 ≤ (messageWord m 3).toNat % 256) : editChecks m k s = .error (refusal .badField) := by
  rw [editChecks, lowNumber_eq, regionNumber_none high]

theorem editChecks_owner {i : RegionId} (number : (messageWord m 3).toNat % 256 = i.val)
    (other : regionOwner (s.region i) ≠ some k) : editChecks m k s = .error (refusal .badRegion) := by
  rw [editChecks, lowNumber_eq, number, regionNumber_val]
  dsimp only
  cases regionBand (s.region i) with
  | none => rfl
  | some b => exact if_pos other

theorem exists_band {r : Region} (owner : regionOwner r = some k) : ∃ b, regionBand r = some b := by
  cases r with
  | free => cases owner
  | reserved g => exact ⟨_, rfl⟩
  | live g => exact ⟨_, rfl⟩

theorem editChecks_retiring {i : RegionId} (number : (messageWord m 3).toNat % 256 = i.val)
    (owner : regionOwner (s.region i) = some k) (marked : retireMarked (s.region i) = true) :
    editChecks m k s = .error (refusal .retiring) := by
  obtain ⟨b, band⟩ := exists_band owner
  rw [editChecks, lowNumber_eq, number, regionNumber_val]
  dsimp only
  rw [band]
  dsimp only
  rw [if_neg (not_not.mpr owner), if_pos marked]

/-- For an own region without the mark the groups decide (R56 check 4). -/
theorem editChecks_groups {i : RegionId} {b : Band} (number : (messageWord m 3).toNat % 256 = i.val)
    (owner : regionOwner (s.region i) = some k) (bare : retireMarked (s.region i) = false) (band : regionBand (s.region i) = some b) :
    editChecks m k s = ((editGroups m).failing s.panel b).elim (.ok i) fun d => .error (badGroup d) := by
  rw [editChecks, lowNumber_eq, number, regionNumber_val]
  dsimp only
  rw [band]
  dsimp only
  rw [if_neg (not_not.mpr owner), if_neg (by rw [bare]; exact Bool.false_ne_true)]
  cases (editGroups m).failing s.panel b <;> rfl

theorem exec_edit_refused {r : Reply} (takes : Takes s (some .edit) m rest) (passes : Passes s .edit (messageHeader m))
    (checks : editChecks m (messageHeader m).client s = .error r) :
    exec .edit s = .next (placed (replyTo 2 (messageHeader m) r.code r.detail r.fields) (accepted s rest (messageHeader m))) := by
  refine (exec_request (c := .edit) rfl takes passes).trans (congrArg _ ?_)
  rw [ownEdit, editChecks_inHand, checks]
  exact answerRequest_inHand .edit _ r s rest _

theorem exec_edit_ok {i : RegionId} {b : Band} (takes : Takes s (some .edit) m rest) (passes : Passes s .edit (messageHeader m))
    (number : (messageWord m 3).toNat % 256 = i.val) (owner : regionOwner (s.region i) = some (messageHeader m).client)
    (bare : retireMarked (s.region i) = false) (band : regionBand (s.region i) = some b)
    (valid : (editGroups m).failing s.panel b = none) :
    exec .edit s = .next (placed (replyTo 2 (messageHeader m) .ok .none .none) { accepted s rest (messageHeader m) with
      regions := s.regions.set i (editRegion (editGroups m) (s.region i)) }) := by
  refine (exec_request (c := .edit) rfl takes passes).trans (congrArg _ ?_)
  rw [ownEdit, editChecks_inHand, editChecks_groups number owner bare band, valid]
  refine answerRequest_eq ?_
  rw [setRegion_eq, inHand_region, inHand_regions]
  rfl

end

/-- Settles O14: a RESERVED region, a LIVE one without a staged part, and one with it. -/
theorem editStages : Obligations.EditStages := by
  intro s m rest i h k g edited allValid takes passes number
  refine ⟨fun r region owner valid => ?_, fun r region owner bare valid => ?_, fun r st region owner staged unmarked valid => ?_⟩
  · have run := exec_edit_ok takes passes number (by rw [region]; exact congrArg some owner) (by rw [region]; rfl) (by rw [region]; rfl)
      (failing_eq_none.mpr valid)
    rw [run, region]
    rfl
  · have run := exec_edit_ok takes passes number (by rw [region]; exact congrArg some owner) (by rw [region, retireMarked, bare]; rfl)
      (by rw [region]; rfl) (failing_eq_none.mpr valid)
    rw [run, region, editRegion, bare]
    rfl
  · have run := exec_edit_ok takes passes number (by rw [region]; exact congrArg some owner)
      (by rw [region, retireMarked, staged, Option.any_some, unmarked]) (by rw [region]; rfl) (failing_eq_none.mpr valid)
    rw [run, region, editRegion, staged, ← unmarked]
    rfl

/-- Settles O15: each check that fails, with those before it passed. -/
theorem editRefused : Obligations.EditRefused := by
  intro s m rest h n g refused takes passes
  have refuse {r : Reply} (checks : editChecks m h.client s = .error r) := exec_edit_refused takes passes checks
  refine ⟨fun high => refuse (editChecks_number high), fun i number => ⟨fun other => refuse (editChecks_owner number other),
    fun owner => ⟨fun marked => refuse (editChecks_retiring number owner marked), fun bare => ?_⟩⟩⟩
  have groups {b : Band} {d : Detail} (band : regionBand (s.region i) = some b) (bad : g.failing s.panel b = some d) :
      refused .badField d := by
    refine refuse (r := badGroup d) ?_
    rw [editChecks_groups number owner bare band, bad]
    rfl
  obtain ⟨b, band⟩ := exists_band owner
  refine ⟨fun bad => groups band (failing_geometry bad), fun geometry => ⟨fun bad => groups band (failing_source geometry bad),
    fun source c own bad => groups own (failing_appearance geometry source bad)⟩⟩

end Sys2Proof.Machine
end

section
/-! PROOF. RESTACK: its checks in order, and the move it stages (R44 to R46). -/

namespace Sys2Proof.Machine

/-! ### The kind and the reference of the message -/

/-- The reference of a move kind: named for ABOVE and BELOW alone (R44, R180). -/
structure RestackNames (m : List Word) (p : Placement) (r : RegionId) : Prop where
  kind : restackPlacement m = some p
  reference : ∀ q, placementReference p = some q →
    ((messageWord m 3).toNat / 256 % 8 = 2 ∨ (messageWord m 3).toNat / 256 % 8 = 3) ∧ q = r
  named : (messageWord m 3).toNat / 256 % 8 = 2 ∨ (messageWord m 3).toNat / 256 % 8 = 3 → placementReference p = some r

theorem restackPlacement_none {m : List Word} (bad : 4 ≤ (messageWord m 3).toNat / 256 % 8
    ∨ ((messageWord m 3).toNat / 256 % 8 = 2 ∨ (messageWord m 3).toNat / 256 % 8 = 3) ∧ 64 ≤ (messageWord m 4).toNat % 256) :
    restackPlacement m = none := by
  unfold restackPlacement
  rw [enumField_eq, lowNumber_eq]
  split
  · next kind => omega
  · next kind => omega
  · next kind => rw [regionNumber_none (by omega)]; rfl
  · next kind => rw [regionNumber_none (by omega)]; rfl
  · rfl

theorem exists_restackNames {m : List Word} {r : RegionId} (kind : (messageWord m 3).toNat / 256 % 8 < 4)
    (reference : (messageWord m 3).toNat / 256 % 8 = 2 ∨ (messageWord m 3).toNat / 256 % 8 = 3 →
      (messageWord m 4).toNat % 256 = r.val) : ∃ p, RestackNames m p r := by
  have placement (p : Placement) (e : restackPlacement m = some p)
      (q : placementReference p = if (messageWord m 3).toNat / 256 % 8 = 2 ∨ (messageWord m 3).toNat / 256 % 8 = 3 then some r else none) :
      RestackNames m p r := by
    refine ⟨e, fun j own => ?_, fun named => by rw [q, if_pos named]⟩
    rw [q] at own
    split_ifs at own with named
    exact ⟨named, (Option.some.inj own).symm⟩
  unfold restackPlacement at placement
  rw [enumField_eq, lowNumber_eq] at placement
  generalize (messageWord m 3).toNat / 256 % 8 = n at *
  match n, kind with
  | 0, _ => exact ⟨_, placement .top rfl rfl⟩
  | 1, _ => exact ⟨_, placement .bottom rfl rfl⟩
  | 2, _ => exact ⟨_, placement (.above r) (by rw [reference (.inl rfl), regionNumber_val]; rfl) rfl⟩
  | 3, _ => exact ⟨_, placement (.below r) (by rw [reference (.inr rfl), regionNumber_val]; rfl) rfl⟩

/-- The placement of a message, from its two fields (R180). -/
theorem restackPlacement_of {m : List Word} {p : Placement} (fields : match p with
      | .top => (messageWord m 3).toNat / 256 % 8 = 0
      | .bottom => (messageWord m 3).toNat / 256 % 8 = 1
      | .above r => (messageWord m 3).toNat / 256 % 8 = 2 ∧ (messageWord m 4).toNat % 256 = r.val
      | .below r => (messageWord m 3).toNat / 256 % 8 = 3 ∧ (messageWord m 4).toNat % 256 = r.val) :
    restackPlacement m = some p := by
  unfold restackPlacement
  rw [enumField_eq, lowNumber_eq]
  cases p with
  | top => rw [show (messageWord m 3).toNat / 256 % 8 = 0 from fields] <;> rfl
  | bottom => rw [show (messageWord m 3).toNat / 256 % 8 = 1 from fields] <;> rfl
  | above r =>
    obtain ⟨kind, reference⟩ := fields
    rw [kind, reference, regionNumber_val]
    rfl
  | below r =>
    obtain ⟨kind, reference⟩ := fields
    rw [kind, reference, regionNumber_val]
    rfl

/-! ### The checks on the reference (R45 checks 4 to 7) -/

section
variable {s : State} {i r : RegionId} {k : ClientId}

theorem referenceRefusal_self_or_free (h : r = i ∨ s.region r = .free) : referenceRefusal i r k s = some .badRegion := by
  unfold referenceRefusal
  split_ifs with self
  · rfl
  · rw [h.resolve_left self]

theorem referenceRefusal_band (ne : r ≠ i) (used : s.region r ≠ .free) (band : regionBand (s.region r) ≠ regionBand (s.region i)) :
    referenceRefusal i r k s = some .bandMismatch := by
  unfold referenceRefusal
  rw [if_neg ne]
  cases e : s.region r with
  | free => exact absurd e used
  | reserved g => rw [e] at band; exact if_pos band.symm
  | live g => rw [e] at band; exact if_pos band.symm

theorem referenceRefusal_reserved {q : ReservedRegion} (ne : r ≠ i) (band : regionBand (s.region r) = regionBand (s.region i))
    (region : s.region r = .reserved q) (other : q.owner ≠ k) : referenceRefusal i r k s = some .badRegion := by
  unfold referenceRefusal
  rw [if_neg ne, region]
  rw [region] at band
  exact (if_neg (not_not.mpr band.symm)).trans (if_pos other)

theorem referenceRefusal_none (ne : r ≠ i) (band : regionBand (s.region r) = regionBand (s.region i))
    (allowed : isLive (s.region r) = true ∨ regionOwner (s.region r) = some k) : referenceRefusal i r k s = none := by
  unfold referenceRefusal
  rw [if_neg ne]
  cases e : s.region r with
  | free => rw [e] at allowed; obtain live | own := allowed; cases live; cases own
  | reserved g =>
    rw [e] at band allowed
    have own : g.owner = k := by
      obtain live | own := allowed
      · cases live
      · exact Option.some.inj own
    exact (if_neg (not_not.mpr band.symm)).trans (if_neg (not_not.mpr own))
  | live g => rw [e] at band; exact if_neg (not_not.mpr band.symm)

end

/-! ### The checks as a whole -/

section
variable {s : State} {m : List Word} {rest : List (List Word)} {k : ClientId} {i : RegionId} {p : Placement}

theorem restackChecks_inHand (m : List Word) (k : ClientId) (s : State) (rest : List (List Word)) (h : Header) :
    restackChecks m k (inHand s rest h) = restackChecks m k s := by
  simp only [restackChecks, referenceRefusal, inHand_region, inHand_client]

theorem restackChecks_fields (bad : restackPlacement m = none ∨ 64 ≤ (messageWord m 3).toNat % 256) :
    restackChecks m k s = .error .badField := by
  unfold restackChecks
  obtain none | high := bad
  · rw [none]
  · rw [lowNumber_eq, regionNumber_none high]
    cases restackPlacement m <;> rfl

theorem restackChecks_owner (kind : restackPlacement m = some p) (subject : (messageWord m 3).toNat % 256 = i.val)
    (other : regionOwner (s.region i) ≠ some k) : restackChecks m k s = .error .badRegion := by
  unfold restackChecks
  rw [kind, lowNumber_eq, subject, regionNumber_val]
  exact if_pos other

theorem restackChecks_retiring (kind : restackPlacement m = some p) (subject : (messageWord m 3).toNat % 256 = i.val)
    (owner : regionOwner (s.region i) = some k) (marked : retireMarked (s.region i) = true) :
    restackChecks m k s = .error .retiring := by
  unfold restackChecks
  rw [kind, lowNumber_eq, subject, regionNumber_val]
  exact (if_neg (not_not.mpr owner)).trans (if_pos marked)

/-- For an own subject without the mark the reference decides, and then the room (R45 checks 4 to 8). -/
theorem restackChecks_reference (kind : restackPlacement m = some p) (subject : (messageWord m 3).toNat % 256 = i.val)
    (owner : regionOwner (s.region i) = some k) (bare : retireMarked (s.region i) = false) :
    restackChecks m k s = ((placementReference p).bind fun r => referenceRefusal i r k s).elim
      (if 8 ≤ (s.client k).moves.length then .error .moveFull else .ok { subject := i, placement := p, dead := false })
      fun c => .error c := by
  unfold restackChecks
  rw [kind, lowNumber_eq, subject, regionNumber_val]
  refine (if_neg (not_not.mpr owner)).trans ((if_neg (by rw [bare]; exact Bool.false_ne_true)).trans ?_)
  cases (placementReference p).bind fun r => referenceRefusal i r k s <;> rfl

theorem exec_restack_refused {c : AnswerCode} (takes : Takes s (some .restack) m rest)
    (passes : Passes s .restack (messageHeader m)) (checks : restackChecks m (messageHeader m).client s = .error c) :
    exec .restack s = .next (placed (replyTo 4 (messageHeader m) c .none .none) (accepted s rest (messageHeader m))) := by
  refine (exec_request (c := .restack) rfl takes passes).trans (congrArg _ ?_)
  rw [ownRestack, restackChecks_inHand, checks]
  exact answerRequest_inHand .restack _ (refusal c) s rest _

end

/-- Settles O17: the checks pass, and the move joins the list. -/
theorem restackAppends : Obligations.RestackAppends := by
  intro s m rest i p b h k takes passes subject fields owner band bare reference room
  have passed : ((placementReference p).bind fun r => referenceRefusal i r k s) = none := by
    cases e : placementReference p with
    | none => rfl
    | some r =>
      obtain ⟨ne, same, allowed⟩ := reference r e
      exact referenceRefusal_none ne (same.trans band.symm) allowed
  have checks : restackChecks m k s = .ok { subject := i, placement := p, dead := false } := by
    rw [restackChecks_reference (restackPlacement_of fields) subject owner bare, passed]
    exact if_neg (Nat.not_le.mpr room)
  refine (exec_request (c := .restack) rfl takes passes).trans (congrArg _ ?_)
  rw [ownRestack, restackChecks_inHand, checks]
  dsimp only
  rw [inHand_client, updClient_eq, inHand_client, inHand_clients]
  exact answerRequest_eq rfl

/-- Settles O18: each check that fails, with those before it passed. -/
theorem restackRefused : Obligations.RestackRefused := by
  intro s m rest h k subject kind reference named refused takes passes
  have refuse {c : AnswerCode} (checks : restackChecks m k s = .error c) : refused c := exec_restack_refused takes passes checks
  refine ⟨fun bad => refuse (restackChecks_fields ?_), fun i r number low names => ?_⟩
  · obtain high | high | ⟨named, high⟩ := bad
    · exact .inl (restackPlacement_none (.inl high))
    · exact .inr high
    · exact .inl (restackPlacement_none (.inr ⟨named, high⟩))
  obtain ⟨p, placement, only, given⟩ := exists_restackNames low names
  refine ⟨fun other => refuse (restackChecks_owner placement number other), fun owner =>
    ⟨fun marked => refuse (restackChecks_retiring placement number owner marked), fun bare => ?_⟩⟩
  have byReference {c : AnswerCode} (named : named) (bad : referenceRefusal i r k s = some c) : refused c := by
    refine refuse ?_
    rw [restackChecks_reference placement number owner bare, given named, Option.bind_some, bad]
    rfl
  refine ⟨fun named bad => byReference named (referenceRefusal_self_or_free bad),
    fun named ne used band => byReference named (referenceRefusal_band ne used band),
    fun named ne band ⟨q, region, other⟩ => byReference named (referenceRefusal_reserved ne band region other),
    fun allowed full => refuse ?_⟩
  have passed : ((placementReference p).bind fun r => referenceRefusal i r k s) = none := by
    cases e : placementReference p with
    | none => rfl
    | some q =>
      obtain ⟨named, rfl⟩ := only q e
      obtain ⟨ne, band, allowed⟩ := allowed named
      exact referenceRefusal_none ne band allowed
  rw [restackChecks_reference placement number owner bare, passed]
  exact if_pos full

end Sys2Proof.Machine
end

section
/-! PROOF. Malformed messages, and the common checks of every kind (R78 to R80, R94, R179). -/

namespace Sys2Proof.Machine

/-! ### The kind of a message -/

theorem requestKindOf_eq_some {n : Nat} {k : RequestKind} : requestKindOf n = some k ↔ n = requestKindNumber k := by
  constructor
  · intro h
    unfold requestKindOf at h
    split at h <;> cases h <;> rfl
  · rintro rfl
    cases k <;> rfl

theorem messageKindField_toNat (m : List Word) : (messageKindField m).toNat = (messageWord m 1).toNat / 256 := by
  have small : (messageWord m 1).toNat / 256 < 256 := by
    have := (messageWord m 1).isLt
    omega
  rw [messageKindField, BitVec.extractLsb'_toNat, Nat.shiftRight_eq_div_pow]
  exact Nat.mod_eq_of_lt small

theorem editMask_isEmpty (m : List Word) : (editMask m).isEmpty = true ↔ (messageWord m 3).toNat / 256 % 8 = 0 := by
  simp only [EditMask.isEmpty, editMask, BitVec.getLsbD, Nat.testBit_eq_decide_div_mod_eq, Bool.not_eq_true', Bool.or_eq_false_iff,
    decide_eq_false_iff_not]
  omega

/-- What has a kind: two words or more, a known number, its length, and no empty mask (R56, R78, R179). -/
theorem messageKind_eq_some {m : List Word} {k : RequestKind} : messageKind m = some k ↔
    2 ≤ m.length ∧ (messageWord m 1).toNat / 256 = requestKindNumber k
      ∧ (k = .edit → (messageWord m 3).toNat / 256 % 8 ≠ 0) ∧ m.length = kindLength k m := by
  rw [← messageKindField_toNat, ← requestKindOf_eq_some]
  unfold messageKind
  split_ifs with short
  · exact ⟨nofun, fun ⟨long, _⟩ => absurd long (by omega)⟩
  · cases requestKindOf (messageKindField m).toNat with
    | none => simp
    | some j =>
      simp only [editMask_isEmpty, Option.some.injEq]
      constructor
      · intro h
        split_ifs at h with empty length
        cases h
        exact ⟨by omega, rfl, fun edit zero => empty ⟨edit, zero⟩, length⟩
      · rintro ⟨-, rfl, masked, length⟩
        rw [if_neg fun ⟨edit, zero⟩ => masked edit zero, if_pos length]

/-! ### MALFORMED -/

theorem malformedAnswer_eq (m : List Word) : malformedAnswer m =
    { kind := BitVec.ofNat 8 ((messageWord m 1).toNat / 256)
      header := if m.length ≤ 1 then none else some (messageHeader m)
      reply := { code := .malformed, detail := .none, fields := .none } } := by
  have kind : messageKindField m = BitVec.ofNat 8 ((messageWord m 1).toNat / 256) := by
    rw [← messageKindField_toNat, BitVec.ofNat_toNat, BitVec.setWidth_eq]
  rw [malformedAnswer, kind]
  rfl

theorem runMalformed_of_takes {s : State} {m : List Word} {rest : List (List Word)} (takes : Takes s none m rest) :
    runMalformed s = placed (malformedAnswer m) (taken s rest) := by
  rw [runMalformed, takes_eq takes]
  exact (placeLast_eq_placed _ _).trans (placed_engine _ _ _)

/-- Settles O10: the answer to a message without a kind, and what has one. -/
theorem malformedAnswered : Obligations.MalformedAnswered := by
  refine ⟨fun s m rest takes => ?_, fun m k => messageKind_eq_some.trans ?_⟩
  · rw [← malformedAnswer_eq, ← runMalformed_of_takes takes]
    exact whileHigh_high takes.notReset
  · cases k <;> exact Iff.rfl

/-! ### The common checks -/

theorem clientRefusal_congr {s t : State} {kind : RequestKind} {h : Header} (clients : t.clients = s.clients) :
    clientRefusal kind h t = clientRefusal kind h s := by
  rw [clientRefusal, clientRefusal, client_congr clients]

theorem laterRefusal_congr {s t : State} {kind : RequestKind} {h : Header} (clients : t.clients = s.clients)
    (parked : t.parked = s.parked) : laterRefusal kind h t = laterRefusal kind h s := by
  rw [laterRefusal, laterRefusal, client_congr clients, clearParked_congr parked]

theorem framedBy_engine (race : LeaseRace) (s : State) (e : Engine) :
    framedBy race { s with engine := e } = { framedBy race s with engine := e } := by
  cases race <;> rfl

section
variable {s : State} {kind : RequestKind} {m : List Word} {rest : List (List Word)} {c : AnswerCode}

theorem taken_clients (s : State) (rest : List (List Word)) : (taken s rest).clients = s.clients := by simp [taken]

theorem taken_parked (s : State) (rest : List (List Word)) : (taken s rest).parked = s.parked := by simp [taken]

theorem taken_resetLow (s : State) (rest : List (List Word)) : (taken s rest).resetLow = s.resetLow := by simp [taken]

/-- A request in hand, as the checks see it. -/
theorem framedBy_taken_tables (race : LeaseRace) (s : State) (rest : List (List Word)) :
    (framedBy race { taken s rest with engine := .working .finish }).clients = s.clients
      ∧ (framedBy race { taken s rest with engine := .working .finish }).parked = s.parked := by
  have frame := framedBy_frame race { taken s rest with engine := .working .finish }
  exact ⟨by rw [frame]; exact taken_clients s rest, by rw [frame]; exact taken_parked s rest⟩

/-- A refusal of checks 2 and 3 is the whole effect, without a reload claim (R79, R80). -/
theorem runRacing_clientRefusal (race : LeaseRace) (own : List Word → Header → State → State) (takes : Takes s (some kind) m rest)
    (refused : clientRefusal kind (messageHeader m) s = some c) : runRacing race kind own s =
      placed (replyTo (requestKindNumber kind) (messageHeader m) c .none .none) (framedBy race (taken s rest)) := by
  rw [runRacing, takes_eq takes]
  dsimp only
  rw [clientRefusal_congr (framedBy_taken_tables race s rest).1, refused]
  refine (answerRequest_eq_placed _ _ _ _).trans (placed_of_eq rfl ?_)
  rw [framedBy_engine]

/-- A refusal of checks 4 and 5 is the whole effect beside the reload claim (R79, R80). -/
theorem runRacing_laterRefusal (race : LeaseRace) (own : List Word → Header → State → State) (takes : Takes s (some kind) m rest)
    (known : clientRefusal kind (messageHeader m) s = none) (refused : laterRefusal kind (messageHeader m) s = some c) :
    runRacing race kind own s = placed (replyTo (requestKindNumber kind) (messageHeader m) c .none .none)
      (framedBy race (accepted s rest (messageHeader m))) := by
  obtain ⟨clients, parked⟩ := framedBy_taken_tables race s rest
  have inbox : (taken s rest).leaseInbox = [] := by simp [taken]
  rw [runRacing, takes_eq takes]
  dsimp only
  rw [clientRefusal_congr clients, known]
  dsimp only
  have later : laterRefusal kind (messageHeader m) (handLease (.claim (messageHeader m).client)
      (framedBy race { taken s rest with engine := .working .finish })) = some c := (laterRefusal_congr clients parked).trans refused
  rw [later]
  refine (answerRequest_eq_placed _ _ _ _).trans (Eq.trans ?_ (placed_framedBy_inHand _ race s rest _))
  rw [← framedBy_handLease]
  simp only [handLease, inHand, accepted, inbox, List.nil_append]
  rfl

end

/-- Every kind but QUERY_CLIENT runs as a request with a FRAME_START of the piece, if its piece loads or stops counters. -/
theorem exists_own (race : LeaseRace) {kind : RequestKind} (other : kind ≠ .queryClient) :
    ∃ own, ∀ s, exec (requestCommand race kind) s = whileHigh (runRacing (if leaseKind kind then race else .apart) kind own) s := by
  cases kind with
  | create => exact ⟨ownCreate, fun _ => rfl⟩
  | edit => exact ⟨ownEdit, fun _ => rfl⟩
  | retire => exact ⟨ownRetire, fun _ => rfl⟩
  | restack => exact ⟨ownRestack, fun _ => rfl⟩
  | discard => exact ⟨ownDiscard, fun _ => rfl⟩
  | publish => exact ⟨ownPublish, fun _ => rfl⟩
  | renew => exact ⟨ownRenew, fun _ => rfl⟩
  | queryRegion => exact ⟨ownQueryRegion, fun _ => rfl⟩
  | queryClient => exact absurd rfl other
  | resume => exact ⟨ownResume, fun _ => rfl⟩
  | openClient => exact ⟨ownOpenClient, fun _ => rfl⟩
  | closeClient => exact ⟨ownCloseClient, fun _ => rfl⟩
  | clearAll => exact ⟨ownClearAll, fun _ => rfl⟩
  | setPanel => exact ⟨ownSetPanel, fun _ => rfl⟩

/-- A QUERY_CLIENT refused by check 2 (R78; log 7). -/
theorem exec_queryClient_refused {s : State} {m : List Word} {rest : List (List Word)} {c : AnswerCode} (race : QueryRace)
    (takes : Takes s (some .queryClient) m rest) (refused : clientRefusal .queryClient (messageHeader m) s = some c) :
    exec (.queryClient race) s = .next (placed (replyTo 9 (messageHeader m) c .none .none)
      (if race = .apart then taken s rest else countDown (taken s rest))) := by
  refine (whileHigh_high (f := runQueryClient race) takes.notReset).trans (congrArg _ ?_)
  rw [runQueryClient, takes_eq takes]
  dsimp only
  have client : clientRefusal .queryClient (messageHeader m) { taken s rest with engine := .working .finish } = some c :=
    (clientRefusal_congr (taken_clients s rest)).trans refused
  rw [client]
  refine (answerRequest_eq_placed _ _ _ _).trans (placed_of_eq rfl ?_)
  split_ifs
  · rfl
  · exact congrArg (fun u : State => { u with engine := .free }) (framedBy_engine .frameFirst (taken s rest) _)

section
variable {s : State} {kind : RequestKind} {h : Header}

theorem clientRefusal_noClient (state : (s.client h.client).state = .closed ∨ (s.client h.client).state = .closing) :
    clientRefusal kind h s = some .noClient := by
  unfold clientRefusal
  obtain state | state := state <;> rw [state]

theorem clientRefusal_lapsed (state : (s.client h.client).state = .lapsed) (resume : kind ≠ .resume) (query : kind ≠ .queryClient) :
    clientRefusal kind h s = some .lapsed := by
  unfold clientRefusal
  rw [state]
  exact if_neg (not_or.mpr ⟨resume, query⟩)

theorem clientRefusal_none (state : (s.client h.client).state = .active ∨ (s.client h.client).state = .publishing
    ∨ (s.client h.client).state = .lapsed ∧ kind = .resume) : clientRefusal kind h s = none := by
  unfold clientRefusal
  obtain state | state | ⟨state, resume⟩ := state <;> rw [state]
  exact if_pos (.inl resume)

/-- What check 4 refuses (R78). -/
def HeldBack (s : State) (kind : RequestKind) (h : Header) : Prop :=
  ((s.client h.client).state = .publishing ∧ stagingKind kind = true) ∨ (clearParked s = true ∧ queryKind kind = false)

theorem laterRefusal_held (held : HeldBack s kind h) : laterRefusal kind h s = some .held := by
  unfold HeldBack at held
  rw [← Bool.not_eq_true] at held
  exact if_pos held

theorem laterRefusal_notPermitted (free : ¬ HeldBack s kind h) (supervisor : supervisorKind kind = true) (other : h.client ≠ 0) :
    laterRefusal kind h s = some .notPermitted := by
  unfold HeldBack at free
  rw [← Bool.not_eq_true] at free
  exact (if_neg free).trans (if_pos ⟨supervisor, other⟩)

/-- Checks 4 and 5 concern no QUERY_CLIENT. -/
theorem not_queryClient_of_held (held : HeldBack s kind h) : kind ≠ .queryClient := by
  rintro rfl
  obtain ⟨-, staging⟩ | ⟨-, other⟩ := held
  · cases staging
  · cases other

theorem not_queryClient_of_supervisor (supervisor : supervisorKind kind = true) : kind ≠ .queryClient := by
  rintro rfl
  cases supervisor

end

/-- Settles O11: the checks in order, for every kind and for a QUERY_CLIENT with a FRAME_START in its piece. -/
theorem commonChecksRefuse : Obligations.CommonChecksRefuse := by
  constructor
  case right =>
    intro s race m rest takes h state
    exact ⟨countDown (taken s rest), whileHigh_high ((taken_resetLow s rest).trans takes.notReset),
      exec_queryClient_refused race takes (clientRefusal_noClient state)⟩
  intro s kind race m rest takes h c refusedIn
  have goes (v : State) (high : v.resetLow = false) :
      goesOnFrom (if leaseKind kind then race else .apart) v (framedBy (if leaseKind kind then race else .apart) v) :=
    goesOnFrom_framedBy high _
  have byClient {code : AnswerCode} (other : kind ≠ .queryClient) (refused : clientRefusal kind h s = some code) :
      refusedIn (taken s rest) code := by
    obtain ⟨own, command⟩ := exists_own race other
    refine ⟨_, goes _ ((taken_resetLow s rest).trans takes.notReset), ?_⟩
    rw [command, whileHigh_high takes.notReset, runRacing_clientRefusal _ own takes refused]
  have byLater {code : AnswerCode} (other : kind ≠ .queryClient) (known : clientRefusal kind h s = none)
      (refused : laterRefusal kind h s = some code) : refusedIn (accepted s rest h) code := by
    obtain ⟨own, command⟩ := exists_own race other
    refine ⟨_, goes _ ((accepted_resetLow s rest h).trans takes.notReset), ?_⟩
    rw [command, whileHigh_high takes.notReset, runRacing_laterRefusal _ own takes known refused]
  refine ⟨fun state => ?_, fun state resume query => byClient query (clientRefusal_lapsed state resume query),
    fun state => ⟨fun held => byLater (not_queryClient_of_held held) (clientRefusal_none state) (laterRefusal_held held),
      fun free supervisor other => byLater (not_queryClient_of_supervisor supervisor) (clientRefusal_none state)
        (laterRefusal_notPermitted free supervisor other)⟩⟩
  by_cases query : kind = .queryClient
  · subst query
    exact ⟨taken s rest, rfl, exec_queryClient_refused .apart takes (clientRefusal_noClient state)⟩
  · exact byClient query (clientRefusal_noClient state)

end Sys2Proof.Machine
end

section
/-! PROOF. DISCARD and RETIRE: what discarding a client's staging leaves, and the mark or the release of one region (R8, R10, R14,
R15, R24, R47, R48, R58 to R60). -/

namespace Sys2Proof.Machine

/-! ### Frames -/

theorem eq_of_tables {u t : State} (frame : tableFrame u t) (bands : t.bands = u.bands) :
    t = { u with regions := t.regions, clients := t.clients } := by
  unfold tableFrame at frame
  rw [bands] at frame
  exact frame

theorem discardStaging_withEngine (k : ClientId) (s : State) (e : Engine) :
    discardStaging k { s with engine := e } = { discardStaging k s with engine := e } := by
  cases s; rfl

theorem retireReserved_withEngine (i : RegionId) (k : ClientId) (s : State) (e : Engine) :
    retireReserved i k { s with engine := e } = { retireReserved i k s with engine := e } := by
  cases s; rfl

/-! ### Records that leave the table -/

/-- A move is dead when its reference is among records that are freed for a property of theirs (R48). -/
theorem markDead_idsWhere (p : Region → Bool) (s : State) : markDead (s.idsWhere p) = fun v =>
    { v with dead := v.dead || (placementReference v.placement).any fun r => p (s.region r) } := by
  funext v
  simp [markDead]

theorem markDead_singleton (i : RegionId) : markDead [i] = fun v =>
    { v with dead := v.dead || decide (placementReference v.placement = some i) } := by
  funext v
  rw [markDead]
  cases placementReference v.placement <;> simp

theorem owner_of_isReservedOf {k : ClientId} {r : Region} (h : isReservedOf k r = true) : regionOwner r = some k := by
  cases r with
  | reserved g => exact congrArg some (of_decide_eq_true h)
  | _ => cases h

/-- The owned count of each client falls by its own records that are freed (R24). -/
theorem length_freed_of_owner {k j : ClientId} {s : State} {p : Region → Bool} (owner : ∀ r, p r = true → regionOwner r = some k) :
    ((s.idsWhere p).filter fun i => decide (regionOwner (s.region i) = some j)).length
      = if j = k then (s.idsWhere p).length else 0 := by
  have own (i : RegionId) (hi : i ∈ s.idsWhere p) : regionOwner (s.region i) = some k := owner _ ((mem_idsWhere p s i).mp hi)
  split_ifs with same
  · rw [List.filter_eq_self.mpr fun i hi => by rw [own i hi, same, decide_eq_true_eq]]
  · rw [List.filter_eq_nil_iff.mpr fun i hi => by rw [own i hi, decide_eq_true_eq]; exact fun e => same (Option.some.inj e).symm]
    rfl

/-- Creation orders close up among the records of one owner alone (R8). -/
theorem closeUpOrder_other {k : ClientId} {s : State} {ids : List RegionId} {g : ReservedRegion}
    (freed : ∀ i ∈ ids, regionOwner (s.region i) = some k) (other : g.owner ≠ k) :
    closeUpOrder s ids (.reserved g) = .reserved g := by
  have none : (ids.filter fun j => precedes g (s.region j)) = [] := by
    refine List.filter_eq_nil_iff.mpr fun j hj before => ?_
    have own := freed j hj
    cases e : s.region j with
    | free => rw [e] at own; cases own
    | live h => rw [e] at before; cases before
    | reserved h =>
      rw [e] at own before
      exact other ((of_decide_eq_true before).1.symm.trans (Option.some.inj own))
  rw [closeUpOrder_reserved, none]
  rfl

/-! ### Discarding (R60) -/

theorem stagingDiscarded_discardStaging (k : ClientId) (s : State) : stagingDiscarded k s (discardStaging k s) := by
  have freed (i : RegionId) (hi : i ∈ s.idsWhere (isReservedOf k)) : regionOwner (s.region i) = some k :=
    owner_of_isReservedOf ((mem_idsWhere _ s i).mp hi)
  refine ⟨fun i => ?_, fun j => ⟨?_, ?_⟩⟩
  · rw [region_discardStaging]
    cases s.region i with
    | free => rfl
    | live g => rfl
    | reserved g =>
      by_cases own : g.owner = k
      · exact (if_pos (decide_eq_true own)).trans (if_pos own).symm
      · refine (if_neg fun e => own (of_decide_eq_true e)).trans (Eq.trans ?_ (if_neg own).symm)
        rw [closeUpOrder_other freed own]
        rfl
  · have owned : ((discardStaging k s).client j).owned = (s.client j).owned
        - ((s.idsWhere (isReservedOf k)).filter fun i => decide (regionOwner (s.region i) = some j)).length := by
      rw [client_discardStaging, client_freeRecords]
      split_ifs <;> rfl
    rw [owned, length_freed_of_owner fun _ => owner_of_isReservedOf]
    rfl
  · rw [client_discardStaging, client_freeRecords, markDead_idsWhere]
    split_ifs <;> rfl

theorem stagingDiscarded_congr {k : ClientId} {s u t v : State} (h : stagingDiscarded k u t) (regions : u.regions = s.regions)
    (before : ∀ j, (u.client j).owned = (s.client j).owned ∧ (u.client j).moves = (s.client j).moves)
    (kept : v.regions = t.regions)
    (same : ∀ j, (v.client j).owned = (t.client j).owned ∧ (v.client j).moves = (t.client j).moves) : stagingDiscarded k s v := by
  unfold stagingDiscarded at *
  simp only [region_congr regions, fun j => (before j).1, fun j => (before j).2] at h
  obtain ⟨records, parties⟩ := h
  refine ⟨fun i => (region_congr kept i).trans (records i), fun j => ?_⟩
  obtain ⟨owned, moves⟩ := same j
  rw [owned, moves]
  exact parties j

/-- What discarding leaves of a client record (R60). -/
theorem client_discardStaging_eq (k j : ClientId) (s : State) : (discardStaging k s).client j = { s.client j with
    owned := ((discardStaging k s).client j).owned, moves := ((discardStaging k s).client j).moves } := by
  rw [client_discardStaging, client_freeRecords]
  split_ifs <;> rfl

theorem bands_discardStaging {k : ClientId} {s u : State} (lists : BandListsHold s) (regions : u.regions = s.regions)
    (bands : u.bands = s.bands) : (discardStaging k u).bands = u.bands := by
  have ids : u.idsWhere (isReservedOf k) = s.idsWhere (isReservedOf k) := by
    simp only [State.idsWhere, region_congr regions]
  rw [discardStaging_bands, ids, bands]
  refine without_of_reserved lists fun i hi => ?_
  have reserved := (mem_idsWhere _ s i).mp hi
  cases e : s.region i with
  | live g => rw [e] at reserved; cases reserved
  | _ => rfl

/-- Settles O19: the answer is OK and the tables are those with the staging discarded. -/
theorem discardEmptiesStaging : Obligations.DiscardEmptiesStaging := by
  intro s m rest h lists takes passes
  have lists' := bands_discardStaging (k := h.client) lists (accepted_regions s rest h) (accepted_bands s rest h)
  refine ⟨discardStaging h.client (accepted s rest h), ?_, eq_of_tables (discardStaging_tables _ _) lists', ?_, fun j => ?_⟩
  · refine (exec_request (c := .discard) rfl takes passes).trans (congrArg _ (answerRequest_eq ?_))
    exact congrArg (fun u : State => { u with engine := .free }) (discardStaging_withEngine h.client (accepted s rest h) _)
  · exact stagingDiscarded_congr (stagingDiscarded_discardStaging _ _) (accepted_regions s rest h)
      (fun j => by rw [accepted_client]; exact ⟨rfl, rfl⟩) rfl fun j => ⟨rfl, rfl⟩
  · have client := client_discardStaging_eq h.client j (accepted s rest h)
    rwa [accepted_client] at client

/-! ### RETIRE -/

section
variable {s : State} {m : List Word} {rest : List (List Word)} {i : RegionId}

theorem exec_retire (takes : Takes s (some .retire) m rest) (passes : Passes s .retire (messageHeader m))
    (number : (messageWord m 3).toNat % 256 = i.val) : exec .retire s = .next
      (if regionOwner (s.region i) ≠ some (messageHeader m).client then
        answerRequest .retire (messageHeader m) (refusal .badRegion) (inHand s rest (messageHeader m))
      else if isLive (s.region i) then answerRequest .retire (messageHeader m) okReply
        ((inHand s rest (messageHeader m)).setRegion i (markRetire (s.region i)))
      else answerRequest .retire (messageHeader m) okReply
        (retireReserved i (messageHeader m).client (inHand s rest (messageHeader m)))) := by
  refine (exec_request (c := .retire) rfl takes passes).trans (congrArg _ ?_)
  rw [ownRetire, lowNumber_eq, number, regionNumber_val]
  simp only [inHand_region]

theorem markRetire_live (r : LiveRegion) : markRetire (.live r) = .live { r with
    staged := some { part := (r.staged.map (·.part)).getD r.committed, retire := true } } := by
  cases e : r.staged <;> simp [markRetire, e]

theorem region_retireReserved_other {j : RegionId} {k : ClientId} {r : ReservedRegion} (region : s.region i = .reserved r)
    (owner : r.owner = k) (ne : j ≠ i) : (retireReserved i k s).region j =
      match s.region j with
      | .reserved q => if q.owner = k ∧ r.order < q.order then .reserved { q with order := q.order - 1 } else .reserved q
      | other => other := by
  rw [retireReserved, region_updClient, region_freeRecords, if_neg (by simpa using ne)]
  cases s.region j with
  | free => rfl
  | live g => rfl
  | reserved q =>
    rw [closeUpOrder_reserved, List.filter_singleton, region]
    simp only [precedes, owner]
    by_cases closes : q.owner = k ∧ r.order < q.order
    · rw [if_pos closes, decide_eq_true ⟨closes.1.symm, closes.2⟩]
      rfl
    · rw [if_neg closes, decide_eq_false fun e => closes ⟨e.1.symm, e.2⟩]
      rfl

theorem client_freeRecords_singleton (j : ClientId) (s : State) (i : RegionId) : (freeRecords [i] s).client j =
    { s.client j with
      owned := (s.client j).owned - (if regionOwner (s.region i) = some j then 1 else 0)
      moves := (s.client j).moves.map fun v => { v with dead := v.dead || decide (placementReference v.placement = some i) } } := by
  rw [client_freeRecords, markDead_singleton, List.filter_singleton]
  by_cases own : regionOwner (s.region i) = some j <;> simp [own]

end

/-- Settles O16: the two refusals, the mark on a LIVE region, and the release of a RESERVED one. -/
theorem retireMarksOrFrees : Obligations.RetireMarksOrFrees := by
  intro s m rest h k n lists takes passes
  refine ⟨fun high => ?_, fun i number => ⟨fun other => ?_, fun r region owner => ?_, fun r region owner => ?_⟩⟩
  · refine (exec_request (c := .retire) rfl takes passes).trans (congrArg _ ?_)
    rw [ownRetire, lowNumber_eq, regionNumber_none high]
    exact answerRequest_inHand .retire h (refusal .badField) s rest h
  · rw [exec_retire takes passes number, if_pos other]
    exact congrArg _ (answerRequest_inHand .retire h (refusal .badRegion) s rest h)
  · have own : regionOwner (s.region i) = some (messageHeader m).client := by rw [region]; exact congrArg some owner
    rw [exec_retire takes passes number, if_neg (not_not.mpr own), if_pos (by rw [region]; rfl), region, markRetire_live,
      setRegion_eq, inHand_regions]
    exact congrArg _ (answerRequest_eq rfl)
  · have own : regionOwner (s.region i) = some (messageHeader m).client := by rw [region]; exact congrArg some owner
    have bands : (retireReserved i k (accepted s rest h)).bands = (accepted s rest h).bands := by
      have freed : (retireReserved i k (accepted s rest h)).bands = (accepted s rest h).bands.without [i] := by simp [retireReserved]
      rw [freed, accepted_bands]
      exact without_of_reserved lists fun j hj => by rw [List.mem_singleton.mp hj, region]; rfl
    refine ⟨retireReserved i k (accepted s rest h), ?_, eq_of_tables (retireReserved_tables i k _) bands, ?_, fun j ne => ?_, ?_,
      fun j ne => ?_⟩
    · rw [exec_retire takes passes number, if_neg (not_not.mpr own), if_neg (by rw [region]; exact Bool.false_ne_true)]
      exact congrArg _ (answerRequest_eq
        (congrArg (fun u : State => { u with engine := .free }) (retireReserved_withEngine i k (accepted s rest h) _)))
    · rw [retireReserved, region_updClient, region_freeRecords, if_pos (List.mem_singleton.mpr rfl)]
    · have kept := region_retireReserved_other (s := accepted s rest h) ((accepted_region s rest h i).trans region) owner ne
      rw [accepted_region] at kept
      refine kept.trans ?_
      cases s.region j <;> rfl
    · rw [client_retireReserved, if_pos rfl, client_freeRecords_singleton, accepted_region, accepted_client, if_pos own]
      simp only [List.filter_map]
      rfl
    · rw [client_retireReserved, if_neg ne, client_freeRecords_singleton, accepted_region, accepted_client,
        if_neg fun e => ne (Option.some.inj (e.symm.trans own)), Nat.sub_zero]

end Sys2Proof.Machine
end

section
/-! PROOF. An applied publication: which pair a failed guard check names, the inserted regions, the moves that are not skipped,
and the tables and the answer of `publishSteps` (R42, R43, R48 to R50, R65 to R72). -/

namespace Sys2Proof.Machine

/-! ### The guard check (R65, R66) -/

theorem guardSet_ascending (k : ClientId) (s : State) : (guardSet k s).Pairwise fun a b => a.1 < b.1 := by
  refine List.Pairwise.filterMap _ (fun i j less a ha b hb => ?_) (List.pairwise_lt_finRange 64)
  obtain ⟨x, -, rfl⟩ := Option.map_eq_some_iff.mp ha
  obtain ⟨y, -, rfl⟩ := Option.map_eq_some_iff.mp hb
  exact less

/-- In a list ordered by region number the entries of lower number stand before. -/
theorem mem_before_of_lt {before after : List (RegionId × Geometry)} {a c : RegionId × Geometry}
    (ascending : (before ++ a :: after).Pairwise fun a b => a.1 < b.1) (mem : c ∈ before ++ a :: after) (less : c.1 < a.1) :
    c ∈ before := by
  obtain earlier | later := List.mem_append.mp mem
  · exact earlier
  · obtain rfl | behind := List.mem_cons.mp later
    · exact absurd less (lt_irrefl _)
    · have greater := (List.pairwise_cons.mp (List.pairwise_append.mp ascending).2.1).1 c behind
      exact absurd (less.trans greater) (lt_irrefl _)

theorem clash_iff {k : ClientId} {s : State} {i j : RegionId} : clash k s i j ↔
    ∃ x y, (i, x) ∈ guardSet k s ∧ (j, y) ∈ guardSet k s ∧ j ≠ i ∧ x.overlaps y = true := by
  simp only [clash, mem_guardSet]
  constructor
  · rintro ⟨ne, x, y, hx, hy, laps⟩
    exact ⟨x, y, hx, hy, ne.symm, laps⟩
  · rintro ⟨x, y, hx, hy, ne, laps⟩
    exact ⟨ne.symm, x, y, hx, hy, laps⟩

/-- What a failed guard check names: the lowest-numbered overlapping region and the lowest-numbered that overlaps it (R66). -/
theorem overlapNamed_of_firstOverlap {k : ClientId} {s : State} {a b : RegionId} (found : firstOverlap (guardSet k s) = some (a, b)) :
    overlapNamed k s a b := by
  have ascending := guardSet_ascending k s
  obtain ⟨before, ⟨a', x⟩, after, split, first, none⟩ := List.findSome?_eq_some_iff.mp found
  obtain ⟨⟨b', y⟩, partner, same⟩ := Option.map_eq_some_iff.mp first
  cases same
  obtain ⟨laps, nearer, farther, split', others⟩ := List.find?_eq_some_iff_append.mp partner
  simp only [Bool.and_eq_true, decide_eq_true_eq] at laps
  have memA : (a', x) ∈ guardSet k s := by rw [split]; exact List.mem_append_right _ List.mem_cons_self
  have memB : (b', y) ∈ guardSet k s := by rw [split']; exact List.mem_append_right _ List.mem_cons_self
  refine ⟨clash_iff.mpr ⟨x, y, memA, memB, laps⟩, fun i j less clashes => ?_, fun j less clashes => ?_⟩
  · obtain ⟨u, v, hu, hv, ne, laps⟩ := clash_iff.mp clashes
    rw [split] at ascending hu
    have nothing := none (i, u) (mem_before_of_lt ascending hu less)
    rw [Option.map_eq_none_iff, List.find?_eq_none] at nothing
    exact nothing (j, v) hv (by simp [ne, laps])
  · obtain ⟨u, v, hu, hv, ne, laps⟩ := clash_iff.mp clashes
    have same : u = x := Option.some.inj ((mem_guardSet.mp hu).symm.trans (mem_guardSet.mp memA))
    rw [split'] at ascending hv
    have rejected := others (j, v) (mem_before_of_lt ascending hv less)
    simp [ne, ← same, laps] at rejected

theorem overlapNamed_unique {k : ClientId} {s : State} {a b c d : RegionId} (h : overlapNamed k s a b) (g : overlapNamed k s c d) :
    c = a ∧ d = b := by
  obtain ⟨clashes, lowest, nearest⟩ := h
  obtain ⟨clashes', lowest', nearest'⟩ := g
  have first : c = a := le_antisymm (not_lt.mp fun less => lowest' a b less clashes) (not_lt.mp fun less => lowest c d less clashes')
  subst first
  exact ⟨rfl, le_antisymm (not_lt.mp fun less => nearest' b less clashes) (not_lt.mp fun less => nearest d less clashes')⟩

theorem applyPublish_overlap {k : ClientId} {s : State} {i j : RegionId} (clashes : clash k s i j) :
    ∃ a b, overlapNamed k s a b ∧ applyPublish k s =
      (leavePublishing k s, { code := .guardOverlap, detail := .none, fields := .overlap a b }) := by
  obtain ⟨x, y, hx, hy, ne, laps⟩ := clash_iff.mp clashes
  cases found : firstOverlap (guardSet k s) with
  | none =>
    have apart := firstOverlap_eq_none.mp found (i, x) hx (j, y) hy ne
    rw [laps] at apart
    cases apart
  | some ab =>
    obtain ⟨a, b⟩ := ab
    exact ⟨a, b, overlapNamed_of_firstOverlap found, by rw [applyPublish, found]⟩

theorem applyPublish_apart {k : ClientId} {s : State} (apart : ∀ i j, ¬ clash k s i j) : applyPublish k s = publishSteps k s := by
  have none : firstOverlap (guardSet k s) = none := by
    refine firstOverlap_eq_none.mpr fun a ha b hb ne => Bool.eq_false_iff.mpr fun laps => ?_
    exact apart a.1 b.1 (clash_iff.mpr ⟨a.2, b.2, ha, hb, ne, laps⟩)
  rw [applyPublish, none]

/-! ### Insertion (R42, R69) -/

@[simp] theorem regionBand_insertedRecord (eff : Frame) (r : Region) : regionBand (insertedRecord eff r) = regionBand r := by
  cases r <;> rfl

@[simp] theorem isLive_insertedRecord_of_live {eff : Frame} {r : Region} (h : isLive r = true) : isLive (insertedRecord eff r) = true := by
  cases r with
  | live g => rfl
  | _ => cases h

theorem insertRegion_bands {eff : Frame} {s : State} {i : RegionId} {q : ReservedRegion} (reserved : s.region i = .reserved q)
    (b : Band) : (insertRegion eff s i).bands.get b =
      if regionBand (s.region i) = some b then i :: s.bands.get b else s.bands.get b := by
  have bands : (insertRegion eff s i).bands = s.bands.modify q.band (fun l => i :: l) := by
    unfold insertRegion
    rw [reserved]
  rw [bands, get_modify, reserved]
  simp only [regionBand, Option.some.injEq, eq_comm]

/-- The inserted regions stand at the top of their bands, the last one first (R42, R69). -/
theorem insertionStep_bands {ids : List RegionId} {eff : Frame} {s : State} (nodup : ids.Nodup)
    (reserved : ∀ i ∈ ids, ∃ q, s.region i = .reserved q) (b : Band) : (insertionStep ids eff s).bands.get b =
      (ids.filter fun i => decide (regionBand (s.region i) = some b)).reverse ++ s.bands.get b := by
  induction ids generalizing s with
  | nil => rfl
  | cons i ids ih =>
    obtain ⟨fresh, nodup⟩ := List.nodup_cons.mp nodup
    obtain ⟨q, first⟩ := reserved i List.mem_cons_self
    have kept (j : RegionId) (hj : j ∈ ids) : (insertRegion eff s i).region j = s.region j := by
      rw [region_insertRegion, if_neg (show j ≠ i from fun e => fresh (e ▸ hj))]
    have later : (ids.filter fun j => decide (regionBand ((insertRegion eff s i).region j) = some b))
        = ids.filter fun j => decide (regionBand (s.region j) = some b) :=
      List.filter_congr fun j hj => by rw [kept j hj]
    show (insertionStep ids eff (insertRegion eff s i)).bands.get b = _
    rw [ih nodup fun j hj => by rw [kept j hj]; exact reserved j (List.mem_cons_of_mem i hj), later, insertRegion_bands first]
    by_cases own : regionBand (s.region i) = some b <;> simp [own]

/-! ### The state the moves are judged in -/

theorem region_edited (k : ClientId) (s : State) (i : RegionId) : (editStep k (retireStep k s)).region i =
    if isRetiringOf k (s.region i) then .free else commitStaged k (s.region i) := by
  rw [region_editStep, region_retireStep]
  split_ifs <;> rfl

theorem createdInOrder_edited (k : ClientId) (s : State) : createdInOrder k (editStep k (retireStep k s)) = createdInOrder k s := by
  have reserved (i : RegionId) : isReservedOf k ((editStep k (retireStep k s)).region i) = isReservedOf k (s.region i) := by
    rw [region_edited]
    cases s.region i with
    | live g => simp only [commitStaged]; split_ifs <;> [rfl; (split <;> rfl); rfl]
    | _ => rfl
  have order (i : RegionId) : creationOrder ((editStep k (retireStep k s)).region i) = creationOrder (s.region i) := by
    rw [region_edited]
    cases s.region i with
    | live g => simp only [commitStaged]; split_ifs <;> [rfl; (split <;> rfl); rfl]
    | _ => rfl
  simp only [createdInOrder, State.idsWhere, reserved, order]

theorem insertedState_bands (k : ClientId) (s : State) : (insertedState k s).bands = insertedBands k s := by
  have reserved (i : RegionId) (hi : i ∈ createdInOrder k s) : (editStep k (retireStep k s)).region i = s.region i
      ∧ ∃ q, s.region i = .reserved q := by
    obtain ⟨q, e, -⟩ := isReservedOf_iff.mp ((mem_createdInOrder k s i).mp hi)
    exact ⟨by rw [region_edited, e]; rfl, q, e⟩
  refine bands_ext fun b => ?_
  have created : ((createdInOrder k s).filter fun i => decide (regionBand ((editStep k (retireStep k s)).region i) = some b))
      = (createdInOrder k s).filter fun i => decide (regionBand (s.region i) = some b) :=
    List.filter_congr fun i hi => by rw [(reserved i hi).1]
  have left : (editStep k (retireStep k s)).bands.get b = (s.bands.get b).filter fun i => !isRetiringOf k (s.region i) := by
    rw [editStep_bands, retireStep, freeRecords_bands, get_without]
    exact List.filter_congr fun i _ => by simp
  rw [insertedState, createdInOrder_edited, insertionStep_bands (nodup_createdInOrder k s) fun i hi => by
    rw [(reserved i hi).1]; exact (reserved i hi).2, created, left]
  cases b <;> rfl

theorem client_insertedState (k j : ClientId) (s : State) : (insertedState k s).client j = (retireStep k s).client j :=
  client_congr (by simp [insertedState, editStep]) j

/-- The table after a publish, beside the one its moves were judged in: the same LIVE records in the same bands (R70). -/
theorem region_after_moves (k : ClientId) (s : State) (i : RegionId) :
    isLive ((publishSteps k s).1.region i) = isLive ((insertedState k s).region i)
      ∧ regionBand ((publishSteps k s).1.region i) = regionBand ((insertedState k s).region i) := by
  have kept : (moveStep k (insertedState k s)).region i = (insertedState k s).region i := by simp [moveStep, State.region]
  simp only [publishSteps, leavePublishing, region_updClient, region_stampStep]
  rw [show (moveStep k (insertionStep (createdInOrder k (editStep k (retireStep k s))) (effectiveFrame s)
    (editStep k (retireStep k s)))).region i = _ from kept]
  split_ifs <;> simp

end Sys2Proof.Machine
end

section
/-! PROOF. The moves and the answer of an applied publication, and the PUBLISH request: empty staging, a publish that waits, a
refused one and one applied at once (R49, R50, R62 to R72). -/

namespace Sys2Proof.Machine

theorem effectiveFrame_eq (s : State) : effectiveFrame s = frameOfChange s := by
  unfold effectiveFrame frameOfChange
  cases s.snapState <;> rfl

/-! ### The tally of the moves (R49, R50) -/

/-- One applied move, on the band lists. -/
def placeMove (s : State) (l : Bands) (v : Move) : Bands :=
  l.modify ((regionBand (s.region v.subject)).getD .ordinary) (placeSubject v.placement v.subject)

/-- The moves of a list that are not skipped, as the table stands. -/
def keptMoves (s : State) (ms : List Move) : List Move :=
  ms.filter fun v => !moveSkipped s v

theorem exists_band_of_live {r : Region} (live : isLive r = true) : ∃ b, regionBand r = some b := by
  cases r with
  | live g => exact ⟨_, rfl⟩
  | _ => cases live

theorem live_of_not_skipped {s : State} {v : Move} (kept : moveSkipped s v = false) : isLive (s.region v.subject) = true := by
  simp only [moveSkipped, Bool.or_eq_false_iff, Bool.not_eq_false'] at kept
  exact kept.1.2

theorem applyMove_skipped {s : State} {t : MoveTally} {v : Move} (skipped : moveSkipped s v = true) :
    applyMove s t v = { t with skipped := t.skipped + 1 } := if_pos skipped

theorem applyMove_kept {s : State} {t : MoveTally} {v : Move} (kept : moveSkipped s v = false) : applyMove s t v =
    { t with bands := placeMove s t.bands v, applied := t.applied + 1, subjects := v.subject :: t.subjects } := by
  obtain ⟨b, band⟩ := exists_band_of_live (live_of_not_skipped kept)
  rw [applyMove, kept, if_neg Bool.false_ne_true, placeMove, band]
  rfl

theorem foldl_applyMove (s : State) (ms : List Move) (t : MoveTally) : ms.foldl (applyMove s) t =
    { bands := (keptMoves s ms).foldl (placeMove s) t.bands
      applied := t.applied + (keptMoves s ms).length
      skipped := t.skipped + (ms.filter (moveSkipped s)).length
      subjects := ((keptMoves s ms).map (·.subject)).reverse ++ t.subjects } := by
  induction ms generalizing t with
  | nil => rfl
  | cons v ms ih =>
    rw [List.foldl_cons, ih]
    cases skipped : moveSkipped s v with
    | true =>
      rw [applyMove_skipped skipped]
      simp [keptMoves, skipped, Nat.add_assoc, Nat.add_comm 1]
    | false =>
      rw [applyMove_kept skipped]
      simp [keptMoves, skipped, Nat.add_assoc, Nat.add_comm 1]

/-! ### The moves of a publication, as the statements say them -/

section
variable (k : ClientId) (s : State)

/-- A retire step frees the reference of a move that it marks dead, so that the move is skipped for either reason (R48, R50). -/
theorem moveSkipped_insertedState (v : Move) :
    moveSkipped (insertedState k s) (markDead (s.idsWhere (isRetiringOf k)) v) = dropped (publishSteps k s).1 v := by
  have live (i : RegionId) := (region_after_moves k s i).1
  have freed (i : RegionId) (retiring : isRetiringOf k (s.region i) = true) : isLive ((insertedState k s).region i) = false := by
    obtain ⟨q, st, e, -⟩ := isRetiringOf_iff.mp retiring
    have free : (editStep k (retireStep k s)).region i = .free := by rw [region_edited, if_pos retiring]
    rw [insertedState, region_insertionStep, free]
    split_ifs <;> rfl
  simp only [moveSkipped, dropped, live, markDead]
  cases e : placementReference v.placement with
  | none => simp
  | some r =>
    simp only [Option.any_some, mem_idsWhere, Bool.decide_eq_true]
    cases retiring : isRetiringOf k (s.region r) with
    | false => simp
    | true => simp [freed r retiring]

theorem moves_insertedState : ((insertedState k s).client k).moves =
    (s.client k).moves.map (markDead (s.idsWhere (isRetiringOf k))) := by
  rw [client_insertedState, retireStep, client_freeRecords]

theorem keptMoves_insertedState : keptMoves (insertedState k s) ((insertedState k s).client k).moves =
    ((s.client k).moves.filter fun v => !dropped (publishSteps k s).1 v).map (markDead (s.idsWhere (isRetiringOf k))) := by
  rw [moves_insertedState, keptMoves, List.filter_map]
  refine congrArg _ (List.filter_congr fun v _ => ?_)
  rw [Function.comp_apply, moveSkipped_insertedState]

theorem skippedMoves_insertedState : (((insertedState k s).client k).moves.filter (moveSkipped (insertedState k s))).length =
    ((s.client k).moves.filter (dropped (publishSteps k s).1)).length := by
  rw [moves_insertedState, List.filter_map, List.length_map]
  refine congrArg _ (List.filter_congr fun v _ => ?_)
  rw [Function.comp_apply, moveSkipped_insertedState]

theorem tally_subjects (i : RegionId) : i ∈ (tallyMoves k (insertedState k s)).subjects ↔
    i ∈ ((s.client k).moves.filter fun v => !dropped (publishSteps k s).1 v).map (·.subject) := by
  rw [tallyMoves, foldl_applyMove, keptMoves_insertedState, List.map_map, List.append_nil, List.mem_reverse]
  rfl

theorem publishSteps_bands : (publishSteps k s).1.bands =
    ((s.client k).moves.filter fun v => !dropped (publishSteps k s).1 v).foldl
      (placeMove (publishSteps k s).1) (insertedBands k s) := by
  have bands : (publishSteps k s).1.bands = (tallyMoves k (insertedState k s)).bands := by
    simp [publishSteps, insertedState, moveStep]
  have same : (placeMove (publishSteps k s).1) = placeMove (insertedState k s) := by
    funext l v
    rw [placeMove, placeMove, (region_after_moves k s v.subject).2]
  rw [bands, same, tallyMoves, foldl_applyMove, keptMoves_insertedState, List.foldl_map, insertedState_bands]
  rfl

/-- What an applied publish leaves is what the statements say (R65 to R72). -/
theorem publishApplied_publishSteps : publishApplied k (frameOfChange s) s (publishSteps k s).1 (publishSteps k s).2 where
  regions i := by
    rw [region_publishSteps, effectiveFrame_eq]
    unfold publishedRecord
    cases s.region i with
    | free => rfl
    | reserved q => rfl
    | live q =>
      simp only [decide_eq_true_eq, tally_subjects] <;> cases q.staged <;> rfl
  bands := publishSteps_bands k s
  clients j := by
    have owner (r : Region) (h : isRetiringOf k r = true) : regionOwner r = some k := by
      obtain ⟨q, st, rfl, own, -⟩ := isRetiringOf_iff.mp h
      exact congrArg some own
    rw [client_publishSteps, retireStep, client_freeRecords, length_freed_of_owner owner, markDead_idsWhere]
    split_ifs with same
    · rw [same]
      rfl
    · rfl
  reply := by
    have tally : tallyMoves k (insertedState k s) = _ := foldl_applyMove _ _ _
    have counts : (publishSteps k s).2 = Reply.mk .ok .none (.publish (some (effectiveFrame s))
        (tallyMoves k (insertedState k s)).applied (tallyMoves k (insertedState k s)).skipped) := rfl
    rw [counts, effectiveFrame_eq, tally]
    simp only [keptMoves_insertedState, skippedMoves_insertedState, List.length_map, Nat.zero_add]

end

/-! ### The statements' predicates depend on the tables alone -/

/-- Two states have the same Region Table, band lists and Client Table. -/
structure SameTables (s t : State) : Prop where
  regions : t.regions = s.regions
  bands : t.bands = s.bands
  clients : t.clients = s.clients

theorem SameTables.refl (s : State) : SameTables s s := ⟨rfl, rfl, rfl⟩

theorem clash_congr {k : ClientId} {s u : State} (same : SameTables s u) : clash k u = clash k s := by
  funext i j
  simp only [clash, region_congr same.regions]

theorem overlapNamed_congr {k : ClientId} {s u : State} (same : SameTables s u) : overlapNamed k u = overlapNamed k s := by
  funext i j
  simp only [overlapNamed, clash_congr same]

theorem publishApplied.congr {k : ClientId} {eff : Frame} {s u t v : State} {r : Reply} (h : publishApplied k eff u t r)
    (before : SameTables s u) (after : SameTables v t) : publishApplied k eff s v r := by
  have drops : dropped t = dropped v := by
    funext m
    simp only [dropped, region_congr after.regions]
  have inserted : insertedBands k u = insertedBands k s := by
    simp only [insertedBands, createdInOrder, State.idsWhere, region_congr before.regions, before.bands]
  obtain ⟨regions, bands, clients, reply⟩ := h
  simp only [drops, region_congr before.regions, region_congr after.regions, client_congr before.clients] at regions
  simp only [drops, inserted, after.bands, region_congr after.regions, client_congr before.clients] at bands
  simp only [region_congr before.regions, client_congr before.clients, client_congr after.clients] at clients
  simp only [drops, client_congr before.clients] at reply
  exact ⟨regions, bands, clients, reply⟩

/-! ### PUBLISH -/

theorem stagingEmpty_iff (k : ClientId) (s : State) : stagingEmpty k s = true ↔
    (∀ i, isReservedOf k (s.region i) = false ∧ isStagedOf k (s.region i) = false) ∧ (s.client k).moves = [] := by
  simp [stagingEmpty, State.idsWhere, List.filter_eq_nil_iff]

theorem stagingEmpty_inHand (k : ClientId) (s : State) (rest : List (List Word)) (h : Header) :
    stagingEmpty k (inHand s rest h) = stagingEmpty k s := by
  simp [stagingEmpty, State.idsWhere]

theorem isCopying_inHand (s : State) (rest : List (List Word)) (h : Header) : isCopying (inHand s rest h) = isCopying s :=
  isCopying_congr (inHand_snapState s rest h)

/-- The state a change is applied in: its request in hand, committed work indicated (R83). -/
def applying (s : State) (rest : List (List Word)) (h : Header) : State :=
  { inHand s rest h with committedWork := true }

theorem applying_tables (s : State) (rest : List (List Word)) (h : Header) : SameTables s (applying s rest h) :=
  ⟨inHand_regions s rest h, inHand_bands s rest h, inHand_clients s rest h⟩

theorem frameOfChange_congr {s u : State} (state : u.snapState = s.snapState) (frame : u.snapFrame = s.snapFrame) :
    frameOfChange u = frameOfChange s := by
  rw [frameOfChange, frameOfChange, state, frame]

theorem frameOfChange_applying (s : State) (rest : List (List Word)) (h : Header) :
    frameOfChange (applying s rest h) = frameOfChange s :=
  frameOfChange_congr (inHand_snapState s rest h) (inHand_snapFrame s rest h)

/-- The state after a change is made at once: the tables of `t`, no committed work indicated (R83). -/
def committedNow (s : State) (rest : List (List Word)) (h : Header) (t : State) : State :=
  { accepted s rest h with committedWork := false, regions := t.regions, bands := t.bands, clients := t.clients }

theorem committedNow_eq (s : State) (rest : List (List Word)) (h : Header) (t : State) : committedNow s rest h t =
    { accepted s rest h with
      committedWork := false, regions := (committedNow s rest h t).regions, bands := (committedNow s rest h t).bands
      clients := (committedNow s rest h t).clients } := rfl

theorem committedNow_tables (s : State) (rest : List (List Word)) (h : Header) (t : State) :
    SameTables (committedNow s rest h t) t := ⟨rfl, rfl, rfl⟩

section
variable {s : State} {m : List Word} {rest : List (List Word)}

theorem exec_publish (takes : Takes s (some .publish) m rest) (passes : Passes s .publish (messageHeader m)) :
    exec .publish s = .next (if stagingEmpty (messageHeader m).client s then
        answerRequest .publish (messageHeader m) { code := .ok, detail := .none, fields := .publish none 0 0 }
          (inHand s rest (messageHeader m))
      else if isCopying s then parkPublish (messageHeader m).client (messageHeader m).tag (inHand s rest (messageHeader m))
      else applyNow (.publish (messageHeader m).client (messageHeader m).tag) (inHand s rest (messageHeader m))) := by
  refine (exec_request (c := .publish) rfl takes passes).trans (congrArg _ ?_)
  rw [ownPublish, stagingEmpty_inHand, isCopying_inHand]

/-- A publish applied at once: its tables and its answer are those of `applyPublish` (R63, R83). -/
theorem exec_publish_applied (takes : Takes s (some .publish) m rest) (passes : Passes s .publish (messageHeader m))
    (copying : isCopying s = false) (staged : stagingEmpty (messageHeader m).client s = false) {t : State} {r : Reply}
    (applied : applyPublish (messageHeader m).client (applying s rest (messageHeader m)) = (t, r)) :
    exec .publish s = .next (placed { kind := 6, header := some (messageHeader m), reply := r }
      (committedNow s rest (messageHeader m) t)) := by
  have frame : t = { applying s rest (messageHeader m) with regions := t.regions, bands := t.bands, clients := t.clients } := by
    have frame := applyPublish_tables (messageHeader m).client (applying s rest (messageHeader m))
    rw [applied] at frame
    exact frame
  rw [exec_publish takes passes, staged, copying, if_neg Bool.false_ne_true, if_neg Bool.false_ne_true]
  refine congrArg _ ?_
  have entry : applyEntry (.publish (messageHeader m).client (messageHeader m).tag) (applying s rest (messageHeader m))
      = (t, { kind := 6, header := some (messageHeader m), reply := r }) := by
    rw [applyEntry, applied]
    rfl
  rw [applyNow, show ({ inHand s rest (messageHeader m) with committedWork := true } : State) = applying s rest (messageHeader m) from rfl,
    entry, placeLast_eq_placed]
  refine placed_of_eq rfl ?_
  rw [frame]
  rfl

end

/-- Settles O20: empty staging, a publish during a copy, and a RENEW. -/
theorem publishWaitsOrAnswers : Obligations.PublishWaitsOrAnswers := by
  constructor
  case right =>
    intro s m rest h takes passes
    exact exec_renew takes passes
  intro s m rest h k nothingStaged takes passes
  have empty : stagingEmpty k s = true ↔ nothingStaged := stagingEmpty_iff k s
  refine ⟨fun none => ?_, fun some copying => ?_⟩
  · rw [exec_publish takes passes, if_pos (empty.mpr none)]
    exact congrArg _ (answerRequest_inHand .publish h _ s rest h)
  · rw [exec_publish takes passes, if_neg fun e => some (empty.mp e), if_pos copying, parkPublish, updClient_eq]
    have free : (accepted s rest h).engine = .free := takes.engineFree
    have whole : accepted s rest h = { inHand s rest h with engine := .free } := by
      rw [← free]
      rfl
    rw [whole]
    simp only [finishPiece, State.client, inHand_clients, inHand_parked]
    rfl

/-- Settles O21: the pair named is the one the guard check finds. -/
theorem publishRefusedOnOverlap : Obligations.PublishRefusedOnOverlap := by
  intro s m rest a b h k takes passes copying staged named
  have same := applying_tables s rest h
  obtain ⟨c, d, found, applied⟩ := applyPublish_overlap (k := k) (s := applying s rest h) (by rw [clash_congr same]; exact named.1)
  rw [overlapNamed_congr same] at found
  obtain ⟨rfl, rfl⟩ := overlapNamed_unique named found
  rw [exec_publish_applied takes passes copying staged applied, leavePublishing, updClient_eq]
  simp only [committedNow, State.client, same.clients, same.regions, same.bands]
  exact congrArg _ (placed_of_eq rfl (by rw [accepted_regions, accepted_bands]))

/-- Settles O22: the publication's tables and answer are those of `publishSteps`. -/
theorem publishCommits : Obligations.PublishCommits := by
  intro s m rest h k takes passes copying staged apart
  have same := applying_tables s rest h
  have applied := applyPublish_apart (k := k) (s := applying s rest h) (by rw [clash_congr same]; exact apart)
  refine ⟨committedNow s rest h (publishSteps k (applying s rest h)).1, (publishSteps k (applying s rest h)).2,
    exec_publish_applied takes passes copying staged applied, committedNow_eq s rest h _, ?_⟩
  have done := publishApplied_publishSteps k (applying s rest h)
  rw [frameOfChange_applying] at done
  exact done.congr same (committedNow_tables s rest h _)

end Sys2Proof.Machine
end

section
/-! PROOF. QUERY_CLIENT: the asker's reload, a FRAME_START before or after it, and the report (R36, R94, R95; log 7). -/

namespace Sys2Proof.Machine

/-! ### Client numbers -/

@[simp] theorem clientNumber_val (k : ClientId) : clientNumber k.val = some k := by simp [clientNumber]

theorem clientNumber_none {n : Nat} (high : 16 ≤ n) : clientNumber n = none := by
  rw [clientNumber, dif_neg (Nat.not_lt.mpr high)]

/-! ### The answer (R36) -/

/-- The reply to a QUERY_CLIENT, as the tables and the counters stand. -/
def queryReply (m : List Word) (h : Header) (s : State) : Reply :=
  match clientNumber (lowNumber m 3) with
  | none => refusal .badField
  | some k =>
    if h.client ≠ Config.supervisor ∧ k ≠ h.client then refusal .notPermitted
    else { code := .ok, detail := .none, fields := .clientReport (clientReport s k) }

theorem ownQueryClient_eq (m : List Word) (h : Header) (s : State) :
    ownQueryClient m h s = answerRequest .queryClient h (queryReply m h s) s := by
  unfold ownQueryClient queryReply
  cases clientNumber (lowNumber m 3) with
  | none => rfl
  | some k => exact (apply_ite (fun r => answerRequest .queryClient h r s) _ _ _).symm

theorem queryReply_none {m : List Word} {h : Header} {s : State} (high : 16 ≤ (messageWord m 3).toNat % 256) :
    queryReply m h s = refusal .badField := by
  rw [queryReply, lowNumber_eq, clientNumber_none high]

section
variable {m : List Word} {h : Header} {s : State} {k : ClientId}

theorem queryReply_other (number : (messageWord m 3).toNat % 256 = k.val) (supervised : h.client ≠ 0) (other : k ≠ h.client) :
    queryReply m h s = refusal .notPermitted := by
  rw [queryReply, lowNumber_eq, number, clientNumber_val]
  exact if_pos ⟨supervised, other⟩

theorem queryReply_report (number : (messageWord m 3).toNat % 256 = k.val) (allowed : h.client = 0 ∨ k = h.client) :
    queryReply m h s = { code := .ok, detail := .none, fields := .clientReport (clientReport s k) } := by
  rw [queryReply, lowNumber_eq, number, clientNumber_val]
  exact if_neg fun ⟨supervised, other⟩ => allowed.elim supervised other

end

/-! ### The reload and the FRAME_START (R94, R95) -/

/-- A counter after client `k`'s reload claim (R95). -/
def reloaded (k : ClientId) (s : State) (j : ClientId) (c : LeaseCounter) : LeaseCounter :=
  if j = k ∧ c.running = true then { count := leasePeriod s j, running := true } else c

theorem reloaded_running (k : ClientId) (s : State) (j : ClientId) (c : LeaseCounter) : (reloaded k s j c).running = c.running := by
  unfold reloaded
  split_ifs with own
  · exact own.2.symm
  · rfl

/-- A counter that stops at a decrement was at 1 or less (R94). -/
theorem decremented_running (c : LeaseCounter) : (decremented c).running = true ↔ c.running = true ∧ 1 < c.count := by
  unfold decremented
  split_ifs with running last
  · simp [last]
  · simp [running, Nat.not_le.mp last]
  · simp [running]

theorem stops_decremented (c : LeaseCounter) :
    (c.running = true ∧ (decremented c).running = false) ↔ c.running = true ∧ c.count ≤ 1 := by
  rw [← Bool.not_eq_true, decremented_running]
  constructor
  · rintro ⟨running, stops⟩
    exact ⟨running, Nat.not_lt.mp fun more => stops ⟨running, more⟩⟩
  · rintro ⟨running, last⟩
    exact ⟨running, fun ⟨_, more⟩ => absurd more (Nat.not_lt.mpr last)⟩

/-- The reload alone, with nothing handed over before. -/
theorem reload_spec {s : State} (k : ClientId) (settled : s.leaseInbox = []) :
    (settleLease (handLease (.claim k) s)).lapsePending = s.lapsePending
      ∧ (settleLease (handLease (.claim k) s)).flags = s.flags
      ∧ ∀ j, (settleLease (handLease (.claim k) s)).counter j = reloaded k s j (s.counter j) := by
  have inbox : (handLease (.claim k) s).leaseInbox = [.claim k] := by rw [handLease, settled]; rfl
  obtain ⟨pending, counters⟩ := settleLease_claims (s := handLease (.claim k) s)
    (by rw [inbox]; exact fun m hm => ⟨k, List.mem_singleton.mp hm⟩)
  refine ⟨pending.trans (by simp), by simp, fun j => (counters j).trans ?_⟩
  have counter : (handLease (.claim k) s).counter j = s.counter j := counter_congr (by simp) j
  have period : leasePeriod (handLease (.claim k) s) j = leasePeriod s j := leasePeriod_congr (by rw [client_congr (handLease_clients _ s)])
  rw [inbox, counter, period, reloaded]
  simp only [List.mem_singleton, LeaseMsg.claim.injEq]

/-- What the reload and a FRAME_START within the piece leave of the Lease Monitor. -/
structure ReloadDone (race : QueryRace) (k : ClientId) (s t : State) : Prop where
  flag : t.flags.leaseLapse = true ↔
    s.flags.leaseLapse = true ∨ ∃ j, (s.counter j).running = true ∧ (t.counter j).running = false
  counters : ∀ j, t.counter j = match race with
    | .apart => reloaded k s j (s.counter j)
    | .beforeReload => reloaded k s j (decremented (s.counter j))
    | .afterReload => decremented (reloaded k s j (s.counter j))
  pending : ∀ j, j ∈ t.lapsePending ↔ j ∈ s.lapsePending ∨ ((s.counter j).running = true ∧ (t.counter j).running = false)

theorem countDown_leaseLapse (s : State) : (countDown s).flags.leaseLapse = true ↔
    s.flags.leaseLapse = true ∨ ∃ j, (s.counter j).running = true ∧ (s.counter j).count ≤ 1 := by
  rw [countDown_flags]
  simp only [Bool.or_eq_true, decide_eq_true_eq]

theorem reloadWithin_done (race : QueryRace) {k : ClientId} {s : State} (settled : s.leaseInbox = []) :
    ReloadDone race k s (reloadWithin race k s) := by
  cases race with
  | apart =>
    obtain ⟨pending, flags, counters⟩ := reload_spec k settled
    have goesOn (j : ClientId) : ¬ ((s.counter j).running = true ∧ ((reloadWithin .apart k s).counter j).running = false) := by
      rw [reloadWithin, counters, reloaded_running]
      exact fun ⟨running, stopped⟩ => Bool.noConfusion (running.symm.trans stopped)
    refine ⟨?_, counters, fun j => ?_⟩
    · simp only [goesOn, exists_false, or_false]
      rw [reloadWithin, flags]
    · simp only [goesOn, or_false]
      rw [reloadWithin, pending]
  | beforeReload =>
    obtain ⟨pending, flags, counters⟩ := reload_spec (s := countDown s) k ((countDown_leaseInbox s).trans settled)
    have period (j : ClientId) (c : LeaseCounter) : reloaded k (countDown s) j c = reloaded k s j c := by
      rw [reloaded, reloaded, leasePeriod_congr (s := s) (t := countDown s) (by rw [client_congr (countDown_clients s)])]
    have counter (j : ClientId) : (reloadWithin .beforeReload k s).counter j = reloaded k s j (decremented (s.counter j)) := by
      rw [reloadWithin, counters, period, counter_countDown]
    have stops (j : ClientId) : ((s.counter j).running = true ∧ ((reloadWithin .beforeReload k s).counter j).running = false)
        ↔ (s.counter j).running = true ∧ (s.counter j).count ≤ 1 := by
      rw [counter, reloaded_running, stops_decremented]
    refine ⟨?_, counter, fun j => ?_⟩
    · simp only [stops]
      rw [reloadWithin, flags, countDown_leaseLapse]
    · rw [stops, reloadWithin, pending, mem_lapsePending_countDown]
  | afterReload =>
    obtain ⟨pending, flags, counters⟩ := reload_spec k settled
    have counter (j : ClientId) : (reloadWithin .afterReload k s).counter j = decremented (reloaded k s j (s.counter j)) := by
      rw [reloadWithin, counter_countDown, counters]
    have stops (j : ClientId) : ((s.counter j).running = true ∧ ((reloadWithin .afterReload k s).counter j).running = false)
        ↔ (reloaded k s j (s.counter j)).running = true ∧ (reloaded k s j (s.counter j)).count ≤ 1 := by
      rw [counter, ← stops_decremented, reloaded_running]
    refine ⟨?_, counter, fun j => ?_⟩
    · simp only [stops]
      rw [reloadWithin, countDown_leaseLapse, flags]
      simp only [counters]
    · rw [stops, reloadWithin, mem_lapsePending_countDown, pending, counters]

theorem reloadWithin_leaseInbox {race : QueryRace} {k : ClientId} {s : State} : (reloadWithin race k s).leaseInbox = [] := by
  cases race with
  | afterReload => rw [reloadWithin, countDown_leaseInbox]; rfl
  | _ => rfl

/-! What the engine does is no matter to the Lease Monitor. -/

theorem takeLeaseMsg_withEngine (s : State) (msg : LeaseMsg) (e : Engine) :
    takeLeaseMsg { s with engine := e } msg = { takeLeaseMsg s msg with engine := e } := by
  cases msg with
  | claim k =>
    have counter : ({ s with engine := e } : State).counter k = s.counter k := rfl
    simp only [takeLeaseMsg, takeClaim, counter]
    split_ifs <;> rfl
  | _ => rfl

theorem settleLease_withEngine (s : State) (e : Engine) : settleLease { s with engine := e } = { settleLease s with engine := e } := by
  have fold (ms : List LeaseMsg) (u : State) :
      ms.foldl takeLeaseMsg { u with engine := e } = { ms.foldl takeLeaseMsg u with engine := e } := by
    induction ms generalizing u with
    | nil => rfl
    | cons msg ms ih => rw [List.foldl_cons, takeLeaseMsg_withEngine, ih, List.foldl_cons]
  unfold settleLease
  dsimp only
  rw [fold]

theorem reloadWithin_withEngine (race : QueryRace) (k : ClientId) (s : State) (e : Engine) :
    reloadWithin race k { s with engine := e } = { reloadWithin race k s with engine := e } := by
  have reload (u : State) : settleLease (handLease (.claim k) { u with engine := e })
      = { settleLease (handLease (.claim k) u) with engine := e } := settleLease_withEngine (handLease (.claim k) u) e
  have frame (u : State) : countDown { u with engine := e } = { countDown u with engine := e } := framedBy_engine .frameFirst u e
  cases race with
  | apart => exact reload s
  | beforeReload => rw [reloadWithin, reloadWithin, frame, reload]
  | afterReload => rw [reloadWithin, reloadWithin, reload, frame]

/-- What a change of the Lease Monitor alone leaves of a state with a message taken. -/
theorem taken_leaseFrame {s t : State} {rest : List (List Word)} (frame : leaseFrame (taken s rest) t) (inbox : t.leaseInbox = []) :
    t = { settleLease s with requests := rest, counters := t.counters, lapsePending := t.lapsePending, flags := t.flags }
      ∧ t.flags = { s.flags with leaseLapse := t.flags.leaseLapse } ∧ t.clients = s.clients := by
  have flags : t.flags = { s.flags with leaseLapse := t.flags.leaseLapse } := by
    have own : (taken s rest).flags = s.flags := by simp [taken]
    rw [← own]
    exact congrArg State.flags frame
  refine ⟨frame.trans ?_, flags, (congrArg State.clients frame).trans (taken_clients s rest)⟩
  have own : (taken s rest).flags = s.flags := by simp [taken]
  rw [own, ← flags, inbox]
  rfl

/-! ### The request -/

section
variable {s : State} {m : List Word} {rest : List (List Word)}

theorem exec_queryClient (race : QueryRace) (takes : Takes s (some .queryClient) m rest)
    (passes : Passes s .queryClient (messageHeader m)) : exec (.queryClient race) s =
      .next (placed (replyTo 9 (messageHeader m)
          (queryReply m (messageHeader m) (reloadWithin race (messageHeader m).client (taken s rest))).code
          (queryReply m (messageHeader m) (reloadWithin race (messageHeader m).client (taken s rest))).detail
          (queryReply m (messageHeader m) (reloadWithin race (messageHeader m).client (taken s rest))).fields)
        (reloadWithin race (messageHeader m).client (taken s rest))) := by
  refine (whileHigh_high (f := runQueryClient race) takes.notReset).trans (congrArg _ ?_)
  have known : clientRefusal .queryClient (messageHeader m) { taken s rest with engine := .working .finish } = none :=
    passes_clientRefusal passes (taken_clients s rest)
  rw [runQueryClient, takes_eq takes]
  dsimp only
  rw [known]
  dsimp only
  rw [ownQueryClient_eq, reloadWithin_withEngine]
  exact answerRequest_eq rfl

end

/-- Settles O25: the reload, the FRAME_START and the reply. -/
theorem queryClientReports : Obligations.QueryClientReports := by
  intro s m rest race h n u stops reload takes passes
  have settled : (taken s rest).leaseInbox = [] := by simp [taken]
  have done := reloadWithin_done race (k := h.client) settled
  obtain ⟨whole, flags, clients⟩ := taken_leaseFrame (reloadWithin_frame race h.client (taken s rest)) reloadWithin_leaseInbox
  have period (j : ClientId) (c : LeaseCounter) : reloaded h.client (taken s rest) j c = reload j c := by
    rw [reloaded, leasePeriod_congr (s := s) (by rw [client_congr (taken_clients s rest)])]
  have ownFlags : (taken s rest).flags = s.flags := by simp [taken]
  refine ⟨reloadWithin race h.client (taken s rest), _, exec_queryClient race takes passes, whole, flags, ?_, fun j => ?_, done.pending,
    fun high => ?_, fun k number => ⟨fun supervised other => ?_, fun allowed => ?_⟩⟩
  · rw [← ownFlags]
    exact done.flag
  · refine (done.counters j).trans ?_
    simp only [period] <;> cases race <;> rfl
  · rw [queryReply_none high] <;> rfl
  · rw [queryReply_other number supervised other] <;> rfl
  · rw [queryReply_report number allowed, clientReport, client_congr clients]

end Sys2Proof.Machine
end

section
/-! PROOF. RESUME, OPEN_CLIENT and CLEAR_ALL: a FRAME_START within the piece, the load or the stops after it, and the tables
(R28, R29, R37, R52, R89, R90, R93, R96, R102; logs 5 and 7). -/

namespace Sys2Proof.Machine

/-! ### What the Lease Monitor's messages read -/

/-- The Lease Monitor holds the same in two states, and the claims among some messages find the same lease periods. -/
structure LeasesAlike (ms : List LeaseMsg) (s t : State) : Prop where
  counters : t.counters = s.counters
  pending : t.lapsePending = s.lapsePending
  period : ∀ j, LeaseMsg.claim j ∈ ms → leasePeriod t j = leasePeriod s j

theorem leasePeriod_takeLeaseMsg (s : State) (m : LeaseMsg) (j : ClientId) : leasePeriod (takeLeaseMsg s m) j = leasePeriod s j :=
  leasePeriod_congr (by rw [leaseFrame_client (takeLeaseMsg_frame s m)])

theorem takeLeaseMsg_alike {ms : List LeaseMsg} {s t : State} {m : LeaseMsg} (alike : LeasesAlike (m :: ms) s t) :
    LeasesAlike ms (takeLeaseMsg s m) (takeLeaseMsg t m) := by
  have counter := counter_congr alike.counters
  refine ⟨counters_ext fun j => ?_, ?_, fun j hj => ?_⟩
  · cases m with
    | claim k => simp only [takeLeaseMsg, counter_takeClaim, counter, alike.period k List.mem_cons_self]
    | load k p => simp only [takeLeaseMsg, counter_takeLoad, counter]
    | stop k => simp only [takeLeaseMsg, counter_takeStop, counter]
  · cases m with
    | claim k => simp only [takeLeaseMsg, takeClaim_lapsePending, alike.pending]
    | load k p => simp only [takeLeaseMsg, takeLoad_lapsePending, alike.pending]
    | stop k => simp only [takeLeaseMsg, takeStop_lapsePending, alike.pending]
  · rw [leasePeriod_takeLeaseMsg, leasePeriod_takeLeaseMsg, alike.period j (List.mem_cons_of_mem m hj)]

theorem foldl_takeLeaseMsg_alike {ms : List LeaseMsg} {s t : State} (alike : LeasesAlike ms s t) :
    LeasesAlike [] (ms.foldl takeLeaseMsg s) (ms.foldl takeLeaseMsg t) := by
  induction ms generalizing s t with
  | nil => exact alike
  | cons m ms ih => exact ih (takeLeaseMsg_alike alike)

theorem settleLease_alike {s t : State} (inbox : t.leaseInbox = s.leaseInbox) (alike : LeasesAlike s.leaseInbox s t) :
    (settleLease t).counters = (settleLease s).counters ∧ (settleLease t).lapsePending = (settleLease s).lapsePending := by
  have fold := foldl_takeLeaseMsg_alike alike
  unfold settleLease
  rw [inbox]
  exact ⟨fold.counters, fold.pending⟩

/-- Loads and stops change nothing but the Lease Monitor, and leave nothing waiting (log 5). -/
theorem askLease_eq (ms : List LeaseMsg) (s : State) : askLease ms s = { s with
    leaseInbox := [], counters := (askLease ms s).counters, lapsePending := (askLease ms s).lapsePending } := by
  cases s; rfl

theorem askLease_withEngine (ms : List LeaseMsg) (s : State) (e : Engine) :
    askLease ms { s with engine := e } = { askLease ms s with engine := e } :=
  settleLease_withEngine { s with leaseInbox := s.leaseInbox ++ ms } e

section
variable {k : ClientId} {s u : State} (inbox : u.leaseInbox = s.leaseInbox) (alike : LeasesAlike s.leaseInbox s u)
include inbox alike

theorem leaseLoaded_of_alike (p : Nat) : leaseLoaded k p s (askLease [.load k p] u) := by
  obtain ⟨counters, pending⟩ := settleLease_alike inbox alike
  obtain ⟨empty, loaded, set⟩ := askLease_load k p u
  exact ⟨empty, fun j => by rw [loaded, counter_congr counters], set.trans pending⟩

theorem leaseStopped_of_alike : leaseStopped k s (askLease [.stop k] u) := by
  obtain ⟨counters, pending⟩ := settleLease_alike inbox alike
  obtain ⟨empty, stopped, set⟩ := askLease_stop k u
  exact ⟨empty, fun j => by rw [stopped, counter_congr counters], by rw [set, pending]⟩

end

/-! ### A FRAME_START within a piece -/

/-- The accepted request, with a FRAME_START of its piece taken (log 7). -/
def framed (race : LeaseRace) (s : State) (rest : List (List Word)) (h : Header) : State :=
  framedBy race (accepted s rest h)

section
variable (race : LeaseRace) (s : State) (rest : List (List Word)) (h : Header)

theorem framed_frame : leaseFrame (accepted s rest h) (framed race s rest h) := framedBy_frame race _

theorem framedBy_inHand : framedBy race (inHand s rest h) = { framed race s rest h with engine := .working .finish } :=
  framedBy_engine race (accepted s rest h) _

@[simp] theorem framed_regions : (framed race s rest h).regions = s.regions :=
  (congrArg State.regions (framed_frame race s rest h)).trans (accepted_regions s rest h)

@[simp] theorem framed_clients : (framed race s rest h).clients = s.clients :=
  (congrArg State.clients (framed_frame race s rest h)).trans (accepted_clients s rest h)

@[simp] theorem framed_bands : (framed race s rest h).bands = s.bands :=
  (congrArg State.bands (framed_frame race s rest h)).trans (accepted_bands s rest h)

@[simp] theorem framed_parked : (framed race s rest h).parked = s.parked :=
  (congrArg State.parked (framed_frame race s rest h)).trans (accepted_parked s rest h)

@[simp] theorem framed_answers : (framed race s rest h).answers = s.answers :=
  (congrArg State.answers (framed_frame race s rest h)).trans (accepted_answers s rest h)

@[simp] theorem framed_snapState : (framed race s rest h).snapState = s.snapState :=
  (congrArg State.snapState (framed_frame race s rest h)).trans (accepted_snapState s rest h)

@[simp] theorem framed_snapFrame : (framed race s rest h).snapFrame = s.snapFrame :=
  (congrArg State.snapFrame (framed_frame race s rest h)).trans (accepted_snapFrame s rest h)

@[simp] theorem framed_engine : (framed race s rest h).engine = s.engine :=
  (congrArg State.engine (framed_frame race s rest h)).trans (by simp [accepted, taken])

@[simp] theorem framed_region (i : RegionId) : (framed race s rest h).region i = s.region i :=
  region_congr (framed_regions race s rest h) i

@[simp] theorem framed_client (k : ClientId) : (framed race s rest h).client k = s.client k :=
  client_congr (framed_clients race s rest h) k

theorem framed_leaseInbox : (framed race s rest h).leaseInbox = [.claim h.client] := by
  cases race with
  | apart => rfl
  | frameFirst => exact countDown_leaseInbox _

end

section
variable {s : State} {kind : RequestKind} {m : List Word} {rest : List (List Word)}

theorem goesOnFrom_framed (race : LeaseRace) (takes : Takes s (some kind) m rest) :
    goesOnFrom race (accepted s rest (messageHeader m)) (framed race s rest (messageHeader m)) :=
  goesOnFrom_framedBy ((accepted_resetLow s rest _).trans takes.notReset) race

theorem exec_racing {c : Instr} {race : LeaseRace} {own : List Word → Header → State → State}
    (command : exec c s = whileHigh (runRacing race kind own) s) (takes : Takes s (some kind) m rest)
    (passes : Passes s kind (messageHeader m)) : exec c s = .next (own m (messageHeader m)
      { framed race s rest (messageHeader m) with engine := .working .finish }) := by
  rw [command, whileHigh_high takes.notReset, runRacing_of_passes race own takes passes, framedBy_inHand]

/-- The answer to a request from a state with the engine WORKING. -/
theorem answerRequest_working (h : Header) (r : Reply) (u : State) (e : Engine) : answerRequest kind h r { u with engine := e }
    = placed (replyTo (requestKindNumber kind) h r.code r.detail r.fields) u := answerRequest_eq rfl

end

/-! ### RESUME -/

/-- What the Lease Monitor reads does not depend on a client's state (R21, R95). -/
theorem leasesAlike_updClient {ms : List LeaseMsg} (k : ClientId) (f : Client → Client) (s : State)
    (terms : LeaseMsg.claim k ∈ ms → (f (s.client k)).terms = (s.client k).terms) : LeasesAlike ms s (s.updClient k f) := by
  refine ⟨by simp, by simp, fun j hj => leasePeriod_congr ?_⟩
  rw [client_updClient]
  split_ifs with same
  · subst same
    exact terms hj
  · rfl

/-- A client record replaced and its counter loaded (R29, R93, R102). -/
theorem askLease_updClient (ms : List LeaseMsg) (k : ClientId) (f : Client → Client) (u : State) :
    askLease ms (u.updClient k f) = { u with
      leaseInbox := (askLease ms (u.updClient k f)).leaseInbox, counters := (askLease ms (u.updClient k f)).counters
      lapsePending := (askLease ms (u.updClient k f)).lapsePending
      clients := u.clients.set k (f (u.client k)) } := by
  refine (askLease_eq ms _).trans ?_
  rw [updClient_eq]
  rfl

theorem updClient_withEngine (k : ClientId) (f : Client → Client) (u : State) (e : Engine) :
    ({ u with engine := e } : State).updClient k f = { u.updClient k f with engine := e } := by
  cases u; rfl

/-- Settles O26: a LAPSED client is ACTIVE and its counter loaded; another is answered WRONG_STATE. -/
theorem resumeReturns : Obligations.ResumeReturns := by
  intro s race m rest tm h k takes passes terms
  have run := exec_racing (c := .resume race) (race := race) rfl takes passes
  have client : ({ framed race s rest h with engine := .working .finish } : State).client h.client = s.client k := framed_client race s rest h k
  refine ⟨framed race s rest h, goesOnFrom_framed race takes, fun lapsed => ?_, fun other => ?_⟩
  · refine ⟨askLease [.load k tm.period] ((framed race s rest h).updClient k fun c => { c with state := .active }), ?_, ?_, ?_⟩
    · have period : leasePeriod ({ framed race s rest h with engine := .working .finish } : State) h.client = tm.period := by
        rw [leasePeriod, client, terms]
      rw [run, ownResume, client, if_pos lapsed, period, updClient_withEngine, askLease_withEngine]
      exact congrArg _ (answerRequest_working h okReply _ _)
    · refine (askLease_updClient _ k _ _).trans ?_
      rw [framed_clients, framed_client]
    · exact leaseLoaded_of_alike (by simp) (leasesAlike_updClient k _ _ fun _ => rfl) tm.period
  · rw [run, ownResume, client, if_neg other]
    exact congrArg _ (answerRequest_working h (refusal .wrongState) _ _)

/-! ### OPEN_CLIENT -/

theorem targetNumber_none {n : Nat} (out : n = 0 ∨ 16 ≤ n) : targetNumber n = none := by
  unfold targetNumber
  split_ifs with zero
  · rfl
  · exact clientNumber_none (out.resolve_left zero)

theorem targetNumber_val {k : ClientId} (ne : k ≠ 0) : targetNumber k.val = some k := by
  rw [targetNumber, if_neg (show ¬ k.val = 0 from fun e => ne (Fin.ext e)), clientNumber_val]

theorem classOf_eq_none {n : Nat} (high : 2 < n) : classOf n = none := by
  unfold classOf
  split
  · omega
  · omega
  · omega
  · rfl

theorem classOf_bandNumber (b : Band) : classOf (bandNumber b) = some b := by
  cases b <;> rfl

section
variable {m : List Word}

/-- The fields of an OPEN_CLIENT within their ranges (R28). -/
def OpenInRange (m : List Word) : Prop :=
  1 ≤ (messageWord m 3).toNat % 256 ∧ (messageWord m 3).toNat % 256 ≤ 15 ∧ (messageWord m 3).toNat / 256 % 8 ≤ 2
    ∧ 1 ≤ (messageWord m 4).toNat ∧ (messageWord m 4).toNat ≤ 64 ∧ (messageWord m 5).toNat ≤ 1023

theorem openFields_none (out : ¬ OpenInRange m) : openFields m = none := by
  cases found : openFields m with
  | none => rfl
  | some kt =>
    refine absurd ?_ out
    unfold openFields at found
    rw [lowNumber_eq, enumField_eq] at found
    split at found
    · next k b target cls =>
      split_ifs at found with terms
      obtain ⟨number, ne⟩ := targetNumber_eq_some target
      have low : k.val ≠ 0 := fun e => ne (Fin.ext e)
      have high := k.isLt
      have known : (messageWord m 3).toNat / 256 % 8 ≤ 2 := by
        by_contra more
        rw [classOf_eq_none (by omega)] at cls
        cases cls
      exact ⟨by omega, by omega, known, terms⟩
    · cases found

theorem openFields_some {k : ClientId} {b : Band} (range : OpenInRange m) (number : (messageWord m 3).toNat % 256 = k.val)
    (cls : (messageWord m 3).toNat / 256 % 8 = bandNumber b) :
    openFields m = some (k, { cls := b, quota := (messageWord m 4).toNat, period := (messageWord m 5).toNat }) := by
  obtain ⟨low, high, -, terms⟩ := range
  have ne : k ≠ 0 := by
    rintro rfl
    rw [number] at low
    exact absurd low (by decide)
  unfold openFields
  rw [lowNumber_eq, enumField_eq, number, cls, targetNumber_val ne, classOf_bandNumber]
  exact if_pos terms

end

/-- Settles O27: the fields, a target that is open already, and one that is opened. -/
theorem openClientOpens : Obligations.OpenClientOpens := by
  intro s race m rest h n c quota period inRange takes passes
  have run := exec_racing (c := .openClient race) (race := race) rfl takes passes
  refine ⟨framed race s rest h, goesOnFrom_framed race takes, fun out => ?_, fun range k b number cls => ⟨fun other => ?_, fun closed => ?_⟩⟩
  · rw [run, ownOpenClient, openFields_none out]
    exact congrArg _ (answerRequest_working h (refusal .badField) _ _)
  · rw [run, ownOpenClient, openFields_some range number cls]
    refine congrArg _ ((if_neg ?_).trans (answerRequest_working h (refusal .wrongState) _ _))
    rw [show ({ framed race s rest h with engine := .working .finish } : State).client k = s.client k from framed_client race s rest h k]
    exact other
  · have client : ({ framed race s rest h with engine := .working .finish } : State).client k = s.client k := framed_client race s rest h k
    refine ⟨askLease [.load k period] ((framed race s rest h).updClient k fun _ =>
      { state := .active, terms := some { cls := b, quota := quota, period := period }, owned := 0, moves := [], parkedEntry := false }),
      ?_, ?_, ?_⟩
    · rw [run, ownOpenClient, openFields_some range number cls]
      refine congrArg _ ((if_pos (by rw [client]; exact closed)).trans ?_)
      rw [updClient_withEngine, askLease_withEngine]
      exact answerRequest_working h okReply _ _
    · refine (askLease_updClient _ k _ _).trans ?_
      rw [framed_clients]
    · refine leaseLoaded_of_alike (by simp) (leasesAlike_updClient k _ _ fun claimed => ?_) period
      rw [framed_leaseInbox, List.mem_singleton, LeaseMsg.claim.injEq] at claimed
      exact absurd (claimed ▸ closed) passes.isOpen.1

/-! ### CLEAR_ALL -/

/-- A clear changes the tables and the Lease Monitor alone (R90). -/
theorem applyClear_eq (s : State) : applyClear s = { s with
    regions := Vector.replicate 64 .free, bands := { guarded := [], elevated := [], ordinary := [] }
    clients := Vector.ofFn fun k => clearedClient k (s.client k)
    leaseInbox := [], counters := (applyClear s).counters, lapsePending := [] } := by
  cases s; rfl

theorem applyClear_counters {s t : State} (inbox : t.leaseInbox = s.leaseInbox) (alike : LeasesAlike s.leaseInbox s t) :
    (applyClear t).counters = (applyClear s).counters := by
  have settled := settleLease_alike inbox alike
  obtain ⟨-, counters, -⟩ := applyClear_leases s
  obtain ⟨-, counters', -⟩ := applyClear_leases t
  exact counters_ext fun j => by rw [counters, counters', counter_congr settled.1]

theorem applyClear_withWork (s : State) (e : Engine) (work : Bool) :
    applyClear { s with engine := e, committedWork := work } = { applyClear s with engine := e, committedWork := work } := by
  have counters : (applyClear { s with engine := e, committedWork := work }).counters = (applyClear s).counters :=
    applyClear_counters rfl ⟨rfl, rfl, fun _ _ => rfl⟩
  rw [applyClear_eq, counters, applyClear_eq s]
  rfl

/-- The answer to a change applied now carries its effective frame (R72). -/
theorem committedReply_eq {s t : State} (state : t.snapState = s.snapState) (frame : t.snapFrame = s.snapFrame) :
    committedReply t = Reply.mk .ok .none (.effective (frameOfChange s)) := by
  rw [committedReply, effectiveFrame_eq, frameOfChange_congr state frame]

/-- A change applied in the piece that takes its request (R83). -/
theorem applyNow_of_applied {entry : ParkedEntry} {s t : State} {a : Answer} (applied : applyEntry entry { s with committedWork := true } = (t, a)) :
    applyNow entry s = placed a { t with committedWork := false } := by
  rw [applyNow, applied]
  exact placeLast_eq_placed _ _

/-- The answer to a supervisor's change, with its effective frame (R33, R72, R90). -/
def committedAnswer (kind : Byte) (tag : Tag) (s : State) : Answer :=
  { kind := kind, header := some { client := 0, tag := tag }
    reply := { code := .ok, detail := .none, fields := .effective (frameOfChange s) } }

theorem applyEntry_clearAll (tag : Tag) (s : State) : applyEntry (.clearAll tag) s = (applyClear s, committedAnswer 13 tag s) := by
  have state : (applyClear s).snapState = s.snapState := by rw [applyClear_eq]
  have frame : (applyClear s).snapFrame = s.snapFrame := by rw [applyClear_eq]
  rw [applyEntry, committedReply_eq state frame]
  rfl

/-- A supervisor kind is client 0's alone (R26). -/
theorem committedAnswer_eq {s : State} {kind : RequestKind} {h : Header} (passes : Passes s kind h) (supervisor : supervisorKind kind = true)
    (number : Nat) (u : State) : committedAnswer (BitVec.ofNat 8 number) h.tag u = replyTo number h .ok .none (.effective (frameOfChange u)) := by
  have own : ({ client := 0, tag := h.tag } : Header) = h := by rw [← passes.permitted supervisor]
  rw [committedAnswer, own]
  rfl

theorem isCopying_framed (race : LeaseRace) (s : State) (rest : List (List Word)) (h : Header) (e : Engine) :
    isCopying { framed race s rest h with engine := e } = isCopying s :=
  isCopying_congr (framed_snapState race s rest h)

/-- The cleared tables, as the statement writes them (R37, R52, R90). -/
theorem clearedTables_eq (s u : State) (clients : u.clients = s.clients) :
    { applyClear u with committedWork := false } = { u with
      committedWork := false, regions := Vector.replicate 64 .free, bands := { guarded := [], elevated := [], ordinary := [] }
      clients := Vector.ofFn fun k => if k = 0 then { s.client k with owned := 0, moves := [] } else
        { state := .closed, terms := none, owned := 0, moves := [], parkedEntry := false }
      leaseInbox := (applyClear u).leaseInbox, counters := (applyClear u).counters, lapsePending := (applyClear u).lapsePending } := by
  have table : (Vector.ofFn fun k => clearedClient k (u.client k)) = Vector.ofFn fun k =>
      if k = 0 then { s.client k with owned := 0, moves := [] } else
        { state := .closed, terms := none, owned := 0, moves := [], parkedEntry := false } := by
    simp only [client_congr clients]
    rfl
  rw [applyClear_eq, table]

theorem leasesCleared_congr {s t v : State} (h : leasesCleared s t) (inbox : v.leaseInbox = t.leaseInbox) (counters : v.counters = t.counters)
    (pending : v.lapsePending = t.lapsePending) : leasesCleared s v :=
  ⟨inbox.trans h.inbox, fun j => (counter_congr counters j).trans (h.counters j), pending.trans h.pending⟩

/-- Settles O30: a CLEAR_ALL during a copy, and one applied at once. -/
theorem clearAllClears : Obligations.ClearAllClears := by
  intro s race m rest h eff takes passes
  have run := exec_racing (c := .clearAll race) (race := race) rfl takes passes
  rw [ownClearAll, isCopying_framed] at run
  refine ⟨framed race s rest h, goesOnFrom_framed race takes, fun copying => ?_, fun resting => ?_⟩
  · have free : (framed race s rest h).engine = .free := (framed_engine race s rest h).trans takes.engineFree
    have whole : framed race s rest h = { framed race s rest h with engine := .free } := by rw [← free]
    rw [run, if_pos copying, finishPiece, ← framed_parked race s rest h]
    exact congrArg (fun u : State => Host.Outcome.next { u with parked := u.parked ++ [ParkedEntry.clearAll h.tag] }) whole.symm
  · refine ⟨{ applyClear (framed race s rest h) with committedWork := false }, ?_,
      clearedTables_eq s (framed race s rest h) (framed_clients race s rest h), leasesCleared_congr (applyClear_leases _) rfl rfl rfl⟩
    rw [run, resting, if_neg Bool.false_ne_true]
    refine congrArg _ ((applyNow_of_applied (applyEntry_clearAll h.tag _)).trans (placed_of_eq ?_ ?_))
    · refine (committedAnswer_eq passes rfl 13 _).trans (congrArg (fun f => replyTo 13 h .ok .none (.effective f)) ?_)
      exact frameOfChange_congr (s := s) (framed_snapState race s rest h) (framed_snapFrame race s rest h)
    · exact congrArg (fun u : State => { u with committedWork := false, engine := .free })
        (applyClear_withWork (framed race s rest h) (.working .finish) true)

end Sys2Proof.Machine
end

section
/-! PROOF. The rest of a close that parks, a held answer, and a lapse notice (R31, R32, R76, R82, R87, R97 to R99). -/

namespace Sys2Proof.Machine

/-! ### The later steps of a close that parks (R31, R32) -/

/-- A close that parks stops its target's counter, makes it CLOSING and joins the Parked List. -/
theorem closeTail_parked (k : ClientId) (tag : Tag) (s : State) : closeTail k tag true s = { s with
    engine := .free, parked := s.parked ++ [.close k tag], leaseInbox := []
    counters := (askLease [.stop k] s).counters, lapsePending := (askLease [.stop k] s).lapsePending
    clients := s.clients.set k { s.client k with state := .closing, parkedEntry := true } } := by
  have asked : closeBegun k s = { askLease [.stop k] s with clients := s.clients.set k { s.client k with state := .closing } } := by
    rw [closeBegun, updClient_eq, askLease_eq]
    rfl
  have own : (closeBegun k s).client k = { s.client k with state := .closing } := by
    rw [client_closeBegun, if_pos rfl]
  rw [closeTail_parks, updClient_eq, own, asked, askLease_eq]
  simp only [Vector.set_set]

theorem closeTail_working (k : ClientId) (tag : Tag) (s : State) (e : Engine) :
    closeTail k tag true { s with engine := e } = closeTail k tag true s := by
  rw [closeTail_parked, closeTail_parked, askLease_withEngine]
  rfl

/-- The later steps of a close, as the statements say them. -/
theorem closeTail_spec (k : ClientId) (tag : Tag) (s : State) : leaseStopped k s (closeTail k tag true s)
    ∧ closeTail k tag true s = { s with
        engine := .free, parked := s.parked ++ [.close k tag]
        leaseInbox := (closeTail k tag true s).leaseInbox, counters := (closeTail k tag true s).counters
        lapsePending := (closeTail k tag true s).lapsePending
        clients := s.clients.set k { s.client k with state := .closing, parkedEntry := true } } := by
  rw [closeTail_parked]
  obtain ⟨-, counters, pending⟩ := askLease_stop k s
  exact ⟨⟨rfl, fun j => (counter_congr (s := askLease [.stop k] s) rfl j).trans (counters j), pending⟩, rfl⟩

/-! ### HELD_ANSWER_PLACEMENT -/

section
variable {s : State} {a : Answer} {r : Resume}

theorem placeHeld_other (h : ∀ a r, s.engine ≠ .stalled a r) : placeHeld s = s := by
  unfold placeHeld
  split
  · next a r e => exact absurd e (h a r)
  · rfl

theorem placeHeld_full (stalled : s.engine = .stalled a r) (full : 16 ≤ s.answers.length) : placeHeld s = s := by
  rw [placeHeld, stalled]
  refine (placeAnswer_eq_answered a r s).trans ?_
  rw [answered, if_neg (Nat.not_lt.mpr full), ← stalled]

theorem placeHeld_room (stalled : s.engine = .stalled a r) (room : s.answers.length < 16) :
    placeHeld s = answerPlaced r (pushAnswer a s) := by
  rw [placeHeld, stalled]
  exact if_pos (decide_eq_true room)

theorem exec_heldAnswerPlacement (high : s.resetLow = false) : exec .heldAnswerPlacement s = .next (goOn (placeHeld s)) :=
  whileHigh_high (f := fun s => goOn (placeHeld s)) high

theorem exec_copyEndApplication_working (high : s.resetLow = false) (working : s.engine = .working .application) :
    exec .copyEndApplication s = .next (applyNext s) := by
  refine (whileHigh_high (f := takeApplication) high).trans (congrArg _ ?_)
  rw [takeApplication, working]
  rfl

theorem goOn_closeTail {k : ClientId} {tag : Tag} (working : s.engine = .working (.closeTail k tag true)) :
    goOn s = closeTail k tag true s := by
  rw [goOn, working]

theorem goOn_application (working : s.engine = .working .application) : goOn s = applyNext s := by
  rw [goOn, working]

theorem goOn_rest (rest : s.engine = .free ∨ ∃ a r, s.engine = .stalled a r) : goOn s = s := by
  obtain free | ⟨a, r, stalled⟩ := rest
  · rw [goOn, free]
  · rw [goOn, stalled]

end

/-- Settles O32: the work in hand goes on; a held answer is placed first, if there is room. -/
theorem heldAnswerPlaced : Obligations.HeldAnswerPlaced := by
  intro s high parks
  have run := exec_heldAnswerPlacement high
  refine ⟨fun k tag working => ⟨closeTail k tag true s, ?_, closeTail_spec k tag s⟩, fun working => ?_, fun free => ?_,
    fun a r stalled => ⟨fun full => ?_, fun room => ⟨?_, fun k tag => ?_, ?_⟩⟩⟩
  · rw [run, placeHeld_other (by rw [working]; exact fun _ _ => Engine.noConfusion), goOn_closeTail working]
  · rw [run, placeHeld_other (by rw [working]; exact fun _ _ => Engine.noConfusion), goOn_application working,
      exec_copyEndApplication_working high working]
  · rw [run, placeHeld_other (by rw [free]; exact fun _ _ => Engine.noConfusion), goOn_rest (.inl free)]
  · rw [run, placeHeld_full stalled full, goOn_rest (.inr ⟨a, r, stalled⟩)]
  · rintro rfl
    rw [run, placeHeld_room stalled room]
    exact congrArg _ (goOn_rest (.inl rfl))
  · rintro rfl
    refine ⟨closeTail k tag true { s with answers := s.answers ++ [a] }, ?_, closeTail_spec k tag _⟩
    rw [run, placeHeld_room stalled room, ← closeTail_working k tag { s with answers := s.answers ++ [a] } (.working (.closeTail k tag true))]
    exact congrArg _ (goOn_closeTail rfl)
  · rintro rfl
    rw [run, placeHeld_room stalled room, exec_copyEndApplication_working (s := { s with
      answers := s.answers ++ [a], engine := .working .application }) high rfl]
    refine congrArg _ ?_
    by_cases none : s.parked = []
    · have empty : (pushAnswer a s).parked.isEmpty = true := List.isEmpty_iff.mpr none
      have next : applyNext { s with answers := s.answers ++ [a], engine := .working .application }
          = finishApplication { s with answers := s.answers ++ [a], engine := .working .application } := by
        unfold applyNext
        split
        · rfl
        · next e rest parked => exact absurd (none.symm.trans parked) (List.cons_ne_nil e rest).symm
      rw [next, answerPlaced]
      exact (congrArg goOn (if_pos empty)).trans (goOn_rest (.inl rfl))
    · have some : ¬ (pushAnswer a s).parked.isEmpty = true := fun empty => none (List.isEmpty_iff.mp empty)
      rw [answerPlaced]
      exact (congrArg goOn (if_neg some)).trans (goOn_application rfl)

/-! ### The parked publish of a client (R32, R88) -/

section
variable {k : ClientId} {tag : Tag} {before after : List ParkedEntry}

theorem isPublishOf_iff {e : ParkedEntry} : isPublishOf k e = true ↔ ∃ tag, e = .publish k tag := by
  cases e <;> simp [isPublishOf]

theorem not_isPublishOf_of_absent {l : List ParkedEntry} (absent : ∀ g, ParkedEntry.publish k g ∉ l) {e : ParkedEntry} (he : e ∈ l) :
    isPublishOf k e = false := by
  refine Bool.eq_false_iff.mpr fun own => ?_
  obtain ⟨g, rfl⟩ := isPublishOf_iff.mp own
  exact absent g he

theorem filter_notPublish_of_absent {l : List ParkedEntry} (absent : ∀ g, ParkedEntry.publish k g ∉ l) :
    (l.filter fun e => !isPublishOf k e) = l :=
  List.filter_eq_self.mpr fun e he => by rw [not_isPublishOf_of_absent absent he]; rfl

theorem filter_notPublish_split (only : ∀ g, ParkedEntry.publish k g ∉ before ++ after) :
    ((before ++ .publish k tag :: after).filter fun e => !isPublishOf k e) = before ++ after := by
  have own : isPublishOf k (.publish k tag) = true := isPublishOf_iff.mpr ⟨tag, rfl⟩
  rw [List.filter_append, List.filter_cons, own, Bool.not_true, if_neg Bool.false_ne_true, ← List.filter_append,
    filter_notPublish_of_absent only]

theorem parkedPublishTag_of_split {s : State} (split : s.parked = before ++ .publish k tag :: after)
    (only : ∀ g, ParkedEntry.publish k g ∉ before ++ after) : parkedPublishTag k s = some tag := by
  have own : isPublishOf k (.publish k tag) = true := isPublishOf_iff.mpr ⟨tag, rfl⟩
  have none : before.find? (isPublishOf k) = none := List.find?_eq_none.mpr fun e he => by
    rw [not_isPublishOf_of_absent only (List.mem_append_left after he)]
    exact Bool.false_ne_true
  rw [parkedPublishTag, split, List.find?_append, none, Option.none_or, List.find?_cons_of_pos own]

theorem parkedPublishTag_of_absent {s : State} (absent : ∀ g, ParkedEntry.publish k g ∉ s.parked) : parkedPublishTag k s = none := by
  have none : s.parked.find? (isPublishOf k) = none := List.find?_eq_none.mpr fun e he => by
    rw [not_isPublishOf_of_absent absent he]
    exact Bool.false_ne_true
  rw [parkedPublishTag, none]

end

theorem removePublish_eq (k : ClientId) (s : State) : removePublish k s = { s with
    parked := s.parked.filter fun e => !isPublishOf k e
    clients := s.clients.set k { s.client k with parkedEntry := false } } := by
  rw [removePublish, updClient_eq]
  rfl

/-! ### LAPSE_NOTICE -/

theorem cancelledAnswer_eq (k : ClientId) (tag : Tag) (cause : Detail) :
    cancelledAnswer k tag cause = replyTo 6 { client := k, tag := tag } .cancelled cause .none := rfl

/-- What a lapse leaves of the tables, as the statements say it (R98). -/
structure Lapsed (k : ClientId) (s t : State) : Prop where
  discarded : stagingDiscarded k s t
  clients : ∀ j, t.client j = { s.client j with
    state := if j = k then .lapsed else (s.client j).state
    parkedEntry := if j = k then false else (s.client j).parkedEntry
    owned := (t.client j).owned, moves := (t.client j).moves }

/-- A client record that differs in these four fields alone. -/
theorem client_eq_with {c d : Client} {state : ClientState} {flag : Bool} (states : c.state = state) (terms : c.terms = d.terms)
    (flags : c.parkedEntry = flag) :
    c = { d with state := state, parkedEntry := flag, owned := c.owned, moves := c.moves } := by
  subst states flags
  rw [← terms]

@[simp] theorem discardStaging_terms (k j : ClientId) (s : State) : ((discardStaging k s).client j).terms = (s.client j).terms := by
  rw [client_discardStaging]; split_ifs <;> simp [client_freeRecords]

@[simp] theorem discardStaging_parkedEntry (k j : ClientId) (s : State) :
    ((discardStaging k s).client j).parkedEntry = (s.client j).parkedEntry := by
  rw [client_discardStaging]; split_ifs <;> simp [client_freeRecords]

theorem staging_updClient_state (k j : ClientId) (state : ClientState) (s : State) :
    ((s.updClient k fun c => { c with state := state }).client j).owned = (s.client j).owned
      ∧ ((s.updClient k fun c => { c with state := state }).client j).moves = (s.client j).moves := by
  rw [client_updClient]
  split_ifs with same
  · rw [same]
    exact ⟨rfl, rfl⟩
  · exact ⟨rfl, rfl⟩

/-- A lapse discards the staging of a client whose parked-entry flag is NO by then (R98 steps 2 to 5). -/
theorem lapsed_of_discarded {k : ClientId} {s v : State} (regions : v.regions = s.regions) (clients : ∀ j, v.client j =
      { s.client j with parkedEntry := if j = k then false else (s.client j).parkedEntry }) :
    Lapsed k s ((discardStaging k v).updClient k fun c => { c with state := .lapsed }) := by
  refine ⟨stagingDiscarded_congr (stagingDiscarded_discardStaging k v) regions
    (fun j => by rw [clients]; exact ⟨rfl, rfl⟩) (by simp) fun j => staging_updClient_state k j .lapsed _,
    fun j => client_eq_with ?_ ?_ ?_⟩
  · rw [client_updClient, apply_ite Client.state, discardStaging_state, clients]
  · rw [client_updClient, apply_ite Client.terms, discardStaging_terms, ite_self, clients]
  · rw [client_updClient, apply_ite Client.parkedEntry, discardStaging_parkedEntry, ite_self, clients]

theorem withEngine_self {s : State} {e : Engine} (engine : s.engine = e) : { s with engine := e } = s := by
  rw [← engine]

/-- A client has one entry in the Parked List at most (R21). -/
theorem ParkedListHolds.publish_only {s : State} {k : ClientId} {tag : Tag} {before after : List ParkedEntry} (hold : ParkedListHolds s)
    (split : s.parked = before ++ .publish k tag :: after) (g : Tag) : ParkedEntry.publish k g ∉ before ++ after := by
  intro mem
  have distinct := hold.onePerClient
  rw [split, List.filterMap_append, List.filterMap_cons_some (show parkedOwner (.publish k tag) = some k from rfl),
    List.nodup_middle, ← List.filterMap_append] at distinct
  exact (List.nodup_cons.mp distinct).1 (List.mem_filterMap.mpr ⟨_, mem, rfl⟩)

theorem removePublish_withEngine (k : ClientId) (s : State) (e : Engine) :
    removePublish k { s with engine := e } = { removePublish k s with engine := e } := by
  cases s; rfl

theorem lapsedState_withEngine (k : ClientId) (s : State) (e : Engine) :
    lapsedState k { s with engine := e } = { lapsedState k s with engine := e } := by
  have client : ({ s with engine := e } : State).client k = s.client k := rfl
  rw [lapsedState, lapsedState, client]
  split_ifs
  · rw [removePublish_withEngine, discardStaging_withEngine, updClient_withEngine]
  · rw [discardStaging_withEngine, updClient_withEngine]

/-- The lapse of a client without a parked publish (R98). -/
theorem lapseClient_silent {k : ClientId} {s : State} (e : Engine) (flag : (s.client k).parkedEntry = false) :
    lapseClient k { s with engine := e } = { lapsedState k s with engine := .free } := by
  have client : ({ s with engine := e } : State).client k = s.client k := rfl
  have state : lapseClient k { s with engine := e } = finishPiece (lapsedState k { s with engine := e }) := by
    simp only [lapseClient, lapsedState, client, flag, Bool.false_eq_true, if_false]
  rw [state, lapsedState_withEngine, finishPiece]

/-- The lapse of a client with a parked publish, which is answered CANCELLED (R88, R98). -/
theorem lapseClient_cancels {k : ClientId} {s : State} {tag : Tag} (e : Engine) (flag : (s.client k).parkedEntry = true)
    (parked : parkedPublishTag k s = some tag) : lapseClient k { s with engine := e }
      = placed (replyTo 6 { client := k, tag := tag } .cancelled .lapse .none) (lapsedState k s) := by
  have client : ({ s with engine := e } : State).client k = s.client k := rfl
  have found : parkedPublishTag k { s with engine := e } = some tag := parked
  have state : lapseClient k { s with engine := e }
      = placeLast (cancelledAnswer k tag .lapse) (lapsedState k { s with engine := e }) := by
    simp only [lapseClient, lapsedState, client, flag, if_true, found]
  rw [state, lapsedState_withEngine, placeLast_engine, placeLast_eq_placed, cancelledAnswer_eq]

/-- What the tables hold after a lapse (R98 steps 2 to 5). -/
theorem lapsed_lapsedState {k : ClientId} {s u : State} (regions : u.regions = s.regions) (clients : u.clients = s.clients) :
    Lapsed k s (lapsedState k u) := by
  have client := client_congr clients
  rw [lapsedState]
  split_ifs with flag
  · refine lapsed_of_discarded ((removePublish_regions k u).trans regions) fun j => ?_
    rw [client_removePublish, client]
    split_ifs <;> rfl
  · refine lapsed_of_discarded regions fun j => ?_
    rw [client] at flag ⊢
    split_ifs with same
    · rw [same, ← Bool.eq_false_iff.mpr flag]
    · rfl

theorem lapsedState_silent {k : ClientId} {s u : State} (lists : BandListsHold s) (regions : u.regions = s.regions)
    (bands : u.bands = s.bands) (flag : (u.client k).parkedEntry = false) : lapsedState k u = { u with
      regions := (lapsedState k u).regions, clients := (lapsedState k u).clients } := by
  have state : lapsedState k u = (discardStaging k u).updClient k fun c => { c with state := .lapsed } := by
    rw [lapsedState, flag]
    rfl
  rw [state]
  exact eq_of_tables (tableFrame_trans (discardStaging_tables k u) (updClient_tables k _ _))
    ((State.updClient_bands _ _ _).trans (bands_discardStaging lists regions bands))

theorem lapsedState_cancels {k : ClientId} {s u : State} (lists : BandListsHold s) (regions : u.regions = s.regions)
    (bands : u.bands = s.bands) (flag : (u.client k).parkedEntry = true) : lapsedState k u = { u with
      parked := u.parked.filter fun e => !isPublishOf k e
      regions := (lapsedState k u).regions, clients := (lapsedState k u).clients } := by
  have state : lapsedState k u = (discardStaging k (removePublish k u)).updClient k fun c => { c with state := .lapsed } := by
    rw [lapsedState, flag]
    rfl
  have kept : (removePublish k u).regions = s.regions ∧ (removePublish k u).bands = s.bands := by
    rw [removePublish_eq]
    exact ⟨regions, bands⟩
  have tables := eq_of_tables (tableFrame_trans (discardStaging_tables k (removePublish k u)) (updClient_tables k (fun c => { c with state := .lapsed }) _))
    ((State.updClient_bands _ _ _).trans (bands_discardStaging lists kept.1 kept.2))
  rw [state]
  refine tables.trans ?_
  rw [removePublish_eq]

theorem exec_lapseNotice {s : State} {k : ClientId} {others : List ClientId} (high : s.resetLow = false) (free : s.engine = .free)
    (notDue : s.copyEndDue = false) (pending : (settleLease s).lapsePending = k :: others) (absent : k ∉ others) :
    exec .lapseNotice s = .next (match (s.client k).state with
      | .active | .publishing => lapseClient k { settleLease s with lapsePending := others, engine := .working .finish }
      | .closed | .lapsed | .closing => { settleLease s with lapsePending := others }) := by
  have closes : ((settleLease s).lapsePending.filter fun j => decide (j ≠ k)) = others := by
    rw [pending, List.filter_cons_of_neg (by simp)]
    exact List.filter_eq_self.mpr fun j hj => decide_eq_true fun e => absent (e ▸ hj)
  have isOpen : engineOpen s = true := by simp [engineOpen, free, notDue]
  refine (whileHigh_high (f := takeLowestNotice) high).trans (congrArg _ ?_)
  rw [takeLowestNotice, if_pos isOpen, pending]
  simp only [takeNotice]
  rw [closes, show ({ settleLease s with engine := .working .finish } : State).client k = s.client k from settleLease_client s k]
  have whole : settleLease s = { settleLease s with engine := .free } := by rw [← free, ← settleLease_engine s]
  cases (s.client k).state with
  | active => rfl
  | publishing => rfl
  | _ => rw [finishPiece]; exact congrArg (fun u : State => { u with lapsePending := others }) whole.symm

/-- Settles O33: the notice of a client that is not open, of one without and of one with a parked publish. -/
theorem lapseNoticeTaken : Obligations.LapseNoticeTaken := by
  intro s k others u lists parties high free notDue pending absent
  have run := exec_lapseNotice high free notDue pending absent
  refine ⟨fun notActive notPublishing => ?_, fun opened => ?_⟩
  · rw [run]
    cases e : (s.client k).state with
    | active => exact absurd e notActive
    | publishing => exact absurd e notPublishing
    | _ => rfl
  have taken : exec .lapseNotice s = .next (lapseClient k { u with lapsePending := others, engine := .working .finish }) := by
    rw [run]
    obtain e | e := opened <;> rw [e]
  have regions : ({ u with lapsePending := others } : State).regions = s.regions := settleLease_regions s
  have bands : ({ u with lapsePending := others } : State).bands = s.bands := settleLease_bands s
  have clients : ({ u with lapsePending := others } : State).clients = s.clients := settleLease_clients s
  have parked : ({ u with lapsePending := others } : State).parked = s.parked := settleLease_parked s
  have client := client_congr clients k
  have lapsed := lapsed_lapsedState (k := k) regions clients
  refine ⟨lapsedState k { u with lapsePending := others }, lapsed.discarded, lapsed.clients, fun flag => ?_,
    fun before after tag split => ?_⟩
  · rw [← client] at flag
    have frame := lapsedState_silent lists regions bands flag
    have engine : (lapsedState k { u with lapsePending := others }).engine = .free :=
      (congrArg State.engine frame).trans ((settleLease_engine s).trans free)
    refine ⟨frame, ?_⟩
    rw [taken, lapseClient_silent (s := { u with lapsePending := others }) (.working .finish) flag, withEngine_self engine]
  · have mem : ParkedEntry.publish k tag ∈ s.parked := by simp [split]
    have only := parties.publish_only split
    have flag : (({ u with lapsePending := others } : State).client k).parkedEntry = true := by
      rw [client]
      exact (parties.publishing k tag mem).2
    have left : (({ u with lapsePending := others } : State).parked.filter fun e => !isPublishOf k e) = before ++ after := by
      rw [parked, split, filter_notPublish_split only]
    have frame := lapsedState_cancels lists regions bands flag
    rw [left] at frame
    refine ⟨frame, ?_⟩
    rw [taken, lapseClient_cancels (s := { u with lapsePending := others }) (.working .finish) flag
      (parkedPublishTag_of_split (parked.trans split) only)]

end Sys2Proof.Machine
end

section
/-! PROOF. CLOSE_CLIENT: its refusals, the close applied at once, and the close that parks, with the cancelled publish of its target
(R30 to R33, R43, R48, R72, R82, R96; logs 5, 7 and 18). -/

namespace Sys2Proof.Machine

/-! ### The taking of a close (R31, R32) -/

section
variable {k : ClientId} {s : State}

theorem parkedPublishTag_congr {s t : State} (parked : t.parked = s.parked) : parkedPublishTag k t = parkedPublishTag k s := by
  rw [parkedPublishTag, parkedPublishTag, parked]

theorem discardStaging_working_parked (k : ClientId) (s : State) (e : Engine) :
    ({ discardStaging k s with engine := e } : State).parked = s.parked := by
  simp only [discardStaging_parked]

/-- A close whose target has no parked publish (R31). -/
theorem takeClose_silent (tag : Tag) (e : Engine) (absent : ∀ g, ParkedEntry.publish k g ∉ s.parked) :
    takeClose k tag { s with engine := e } = closeTail k tag (isCopying s) { discardStaging k s with engine := e } := by
  have none : parkedPublishTag k { discardStaging k s with engine := e } = none :=
    (parkedPublishTag_congr (discardStaging_working_parked k s e)).trans (parkedPublishTag_of_absent absent)
  rw [takeClose, isCopying_congr (s := s) (t := { s with engine := e }) rfl]
  simp only [discardStaging_withEngine, none]

/-- A close that cancels its target's parked publish (R32). -/
theorem takeClose_cancels {ptag : Tag} (tag : Tag) (e : Engine) (parked : parkedPublishTag k s = some ptag) :
    takeClose k tag { s with engine := e } = goOn (placeAnswer (cancelledAnswer k ptag .close)
      (.closeTail k tag (isCopying s)) { removePublish k (discardStaging k s) with engine := e }) := by
  have found : parkedPublishTag k { discardStaging k s with engine := e } = some ptag :=
    (parkedPublishTag_congr (discardStaging_working_parked k s e)).trans parked
  rw [takeClose, isCopying_congr (s := s) (t := { s with engine := e }) rfl]
  simp only [discardStaging_withEngine, found, removePublish_withEngine]

/-! ### A close applied (R33, R43, R48) -/

theorem closeBegun_withEngine (k : ClientId) (s : State) (e : Engine) :
    closeBegun k { s with engine := e } = { closeBegun k s with engine := e } := by
  rw [closeBegun, closeBegun, askLease_withEngine, updClient_withEngine]

theorem applyClose_withWork (k : ClientId) (s : State) (e : Engine) (work : Bool) :
    applyClose k { s with engine := e, committedWork := work } = { applyClose k s with engine := e, committedWork := work } := by
  cases s; rfl

theorem applyEntry_close (k : ClientId) (tag : Tag) (s : State) :
    applyEntry (.close k tag) s = (applyClose k s, committedAnswer 12 tag s) := by
  have frame : tableFrame s (applyClose k s) := applyClose_tables k s
  have state : (applyClose k s).snapState = s.snapState := by rw [frame]
  have frame : (applyClose k s).snapFrame = s.snapFrame := by rw [frame]
  rw [applyEntry, committedReply_eq state frame]
  rfl

theorem frameOfChange_closeBegun (k : ClientId) (s : State) : frameOfChange (closeBegun k s) = frameOfChange s :=
  frameOfChange_congr (by simp [closeBegun]) (by simp [closeBegun])

theorem closeTail_applied (k : ClientId) (tag : Tag) (s : State) (e : Engine) : closeTail k tag false { s with engine := e }
    = placed (committedAnswer 12 tag s) { applyClose k (closeBegun k s) with committedWork := false } := by
  have now : closeTail k tag false { s with engine := e } = applyNow (.close k tag) { closeBegun k s with engine := e } := by
    rw [← closeBegun_withEngine]
    rfl
  rw [now, applyNow_of_applied (applyEntry_close k tag _), applyClose_withWork]
  refine placed_of_eq (congrArg (fun f => Answer.mk 12 (some { client := 0, tag := tag }) (.mk .ok .none (.effective f))) ?_) rfl
  exact frameOfChange_closeBegun k s

/-- What an applied close leaves is what the statements say (R33, R43, R48). -/
theorem closeApplied_applyClose (k : ClientId) (s : State) : closeApplied k s (applyClose k s) where
  regions i := region_applyClose k s i
  bands b := by
    rw [applyClose_bands, get_without]
    exact List.filter_congr fun i _ => by simp
  clients j := by
    have owner (r : Region) (h : isLiveOf k r = true) : regionOwner r = some k := by
      obtain ⟨g, rfl, own⟩ := isLiveOf_iff.mp h
      exact congrArg some own
    rw [client_applyClose, client_freeRecords, length_freed_of_owner owner, markDead_idsWhere]
    split_ifs with same
    · rfl
    · rfl

/-! ### Staging discarded and the close applied: every record of the target is freed (R31, R33) -/

theorem owned_iff_reserved_or_live (k : ClientId) (r : Region) :
    decide (regionOwner r = some k) = (isReservedOf k r || isLiveOf k r) := by
  cases r <;> simp [regionOwner]

theorem isLiveOf_discardStaging (k : ClientId) (s : State) (i : RegionId) :
    isLiveOf k ((discardStaging k s).region i) = isLiveOf k (s.region i) := by
  rw [(stagingDiscarded_discardStaging k s).1 i]
  cases s.region i with
  | free => rfl
  | reserved g => exact (apply_ite (isLiveOf k) _ _ _).trans (ite_self _)
  | live g =>
    refine (apply_ite (isLiveOf k) _ _ _).trans ?_
    split_ifs <;> rfl

section
variable {t : State}

theorem region_discarded_closed (closed : closeApplied k (discardStaging k s) t) (i : RegionId) :
    t.region i = if regionOwner (s.region i) = some k then .free else s.region i := by
  rw [closed.regions, isLiveOf_discardStaging, (stagingDiscarded_discardStaging k s).1 i]
  cases s.region i with
  | free => rfl
  | reserved g => simp [regionOwner]
  | live g =>
    by_cases own : g.owner = k
    · simp [regionOwner, own]
    · simp [regionOwner, own]

theorem bands_discarded_closed (closed : closeApplied k (discardStaging k s) t) (b : Band) :
    t.bands.get b = (s.bands.get b).filter fun i => decide (regionOwner (s.region i) ≠ some k) := by
  rw [closed.bands, discardStaging_bands, get_without, List.filter_filter]
  refine List.filter_congr fun i _ => ?_
  have owner := owned_iff_reserved_or_live k (s.region i)
  rw [isLiveOf_discardStaging]
  simp [owner, Bool.and_comm]

/-- Discarding a client's staging kills moves of another client, and does nothing else to it (R48, R60). -/
theorem client_discardStaging_other {j : ClientId} (ne : j ≠ k) : (discardStaging k s).client j = { s.client j with
    moves := (s.client j).moves.map fun v =>
      { v with dead := v.dead || (placementReference v.placement).any fun r => isReservedOf k (s.region r) } } := by
  rw [client_discardStaging, if_neg ne, client_freeRecords, length_freed_of_owner fun _ => owner_of_isReservedOf, if_neg ne,
    markDead_idsWhere, Nat.sub_zero]

theorem client_discarded_closed (closed : closeApplied k (discardStaging k s) t) (j : ClientId) : t.client j =
    if j = k then { state := .closed, terms := none, owned := 0, moves := [], parkedEntry := false }
    else { s.client j with moves := (s.client j).moves.map fun v =>
      { v with dead := v.dead || (placementReference v.placement).any fun r => decide (regionOwner (s.region r) = some k) } } := by
  rw [closed.clients]
  split_ifs with same
  · rfl
  · rw [client_discardStaging_other same]
    simp only [List.map_map, isLiveOf_discardStaging, owned_iff_reserved_or_live]
    refine congrArg (fun l => { s.client j with moves := l }) (List.map_congr_left fun v _ => ?_)
    cases e : placementReference v.placement <;> simp [e, Bool.or_assoc]

end

/-! ### What the Lease Monitor holds after a close (R31, R96) -/

theorem leasesAlike_discardStaging (ms : List LeaseMsg) (k : ClientId) (s : State) : LeasesAlike ms s (discardStaging k s) :=
  ⟨by simp, by simp, fun j _ => leasePeriod_congr (discardStaging_terms k j s)⟩

theorem leaseStopped_congr {t v : State} (h : leaseStopped k s t) (inbox : v.leaseInbox = t.leaseInbox) (counters : v.counters = t.counters)
    (pending : v.lapsePending = t.lapsePending) : leaseStopped k s v :=
  ⟨inbox.trans h.inbox, fun j => (counter_congr counters j).trans (h.counters j), pending.trans h.pending⟩

/-- The target's staging discarded and its close applied at once (R31, R33, R83). -/
def closedNow (k : ClientId) (s : State) : State :=
  { applyClose k (closeBegun k (discardStaging k s)) with committedWork := false }

theorem closedNow_frame (k : ClientId) (s : State) : closedNow k s = { s with
    leaseInbox := (closedNow k s).leaseInbox, counters := (closedNow k s).counters, lapsePending := (closedNow k s).lapsePending
    committedWork := false
    regions := (closedNow k s).regions, bands := (closedNow k s).bands, clients := (closedNow k s).clients } := by
  cases s; rfl

theorem closedNow_leases (k : ClientId) (s : State) : leaseStopped k s (closedNow k s) := by
  have frame : tableFrame (closeBegun k (discardStaging k s)) (applyClose k (closeBegun k (discardStaging k s))) := applyClose_tables k _
  have stopped := leaseStopped_of_alike (k := k) (discardStaging_leaseInbox k s) (leasesAlike_discardStaging _ k s)
  refine leaseStopped_congr stopped ?_ ?_ ?_ <;> rw [closedNow, frame] <;> simp [closeBegun]

/-- A close applied to a target that is CLOSING by then leaves what it leaves of the tables before (R31, R33). -/
theorem closeApplied_closedNow (k : ClientId) (s : State) : closeApplied k (discardStaging k s) (closedNow k s) := by
  have region (i : RegionId) : (closeBegun k (discardStaging k s)).region i = (discardStaging k s).region i :=
    region_congr (by simp [closeBegun]) i
  have begun : (closeBegun k (discardStaging k s)).bands = (discardStaging k s).bands := by simp [closeBegun]
  obtain ⟨regions, bands, clients⟩ := closeApplied_applyClose k (closeBegun k (discardStaging k s))
  simp only [region, begun] at regions bands clients
  have tables : SameTables (applyClose k (closeBegun k (discardStaging k s))) (closedNow k s) := ⟨rfl, rfl, rfl⟩
  refine ⟨fun i => (region_congr tables.regions i).trans (regions i), fun b => (congrArg (fun l => Bands.get l b) tables.bands).trans (bands b),
    fun j => (client_congr tables.clients j).trans ((clients j).trans ?_)⟩
  split_ifs with same
  · rfl
  · rw [client_closeBegun, if_neg same]

/-! ### CLOSE_CLIENT -/

theorem ownCloseClient_none {m : List Word} (h : Header) (out : (messageWord m 3).toNat % 256 = 0 ∨ 16 ≤ (messageWord m 3).toNat % 256) :
    ownCloseClient m h s = answerRequest .closeClient h (refusal .badField) s := by
  rw [ownCloseClient, lowNumber_eq, targetNumber_none out]

theorem ownCloseClient_closed {m : List Word} (h : Header) (number : (messageWord m 3).toNat % 256 = k.val) (ne : k ≠ 0)
    (closed : (s.client k).state = .closed ∨ (s.client k).state = .closing) :
    ownCloseClient m h s = answerRequest .closeClient h (refusal .wrongState) s := by
  rw [ownCloseClient, lowNumber_eq, number, targetNumber_val ne]
  obtain e | e := closed <;> simp only [e]

theorem ownCloseClient_open {m : List Word} (h : Header) (number : (messageWord m 3).toNat % 256 = k.val) (ne : k ≠ 0)
    (notClosed : (s.client k).state ≠ .closed) (notClosing : (s.client k).state ≠ .closing) :
    ownCloseClient m h s = takeClose k h.tag s := by
  rw [ownCloseClient, lowNumber_eq, number, targetNumber_val ne]
  cases e : (s.client k).state with
  | closed => exact absurd e notClosed
  | closing => exact absurd e notClosing
  | _ => simp only [e]

theorem exec_closeClient_open {race : LeaseRace} {m : List Word} {rest : List (List Word)} (takes : Takes s (some .closeClient) m rest)
    (passes : Passes s .closeClient (messageHeader m)) (number : (messageWord m 3).toNat % 256 = k.val) (ne : k ≠ 0)
    (notClosed : (s.client k).state ≠ .closed) (notClosing : (s.client k).state ≠ .closing) :
    exec (.closeClient race) s = .next (takeClose k (messageHeader m).tag
      { framed race s rest (messageHeader m) with engine := .working .finish }) := by
  have client : ({ framed race s rest (messageHeader m) with engine := .working .finish } : State).client k = s.client k :=
    framed_client race s rest _ k
  rw [exec_racing (c := .closeClient race) (race := race) rfl takes passes,
    ownCloseClient_open _ number ne (by rw [client]; exact notClosed) (by rw [client]; exact notClosing)]

end

/-- Settles O28: the target's number, a target that is not open, and a close applied at once. -/
theorem closeAppliedAtOnce : Obligations.CloseAppliedAtOnce := by
  intro s race m rest h n eff takes passes
  have run := exec_racing (c := .closeClient race) (race := race) rfl takes passes
  refine ⟨framed race s rest h, goesOnFrom_framed race takes, fun out => ?_, fun k number ne => ⟨fun closed => ?_,
    fun notClosed notClosing resting nothing => ?_⟩⟩
  · rw [run, ownCloseClient_none _ out]
    exact congrArg _ (answerRequest_working h (refusal .badField) _ _)
  · have client : ({ framed race s rest h with engine := .working .finish } : State).client k = s.client k := framed_client race s rest h k
    rw [run, ownCloseClient_closed _ number ne (by rw [client]; exact closed)]
    exact congrArg _ (answerRequest_working h (refusal .wrongState) _ _)
  · have applied := closeApplied_closedNow k (framed race s rest h)
    refine ⟨closedNow k (framed race s rest h), ?_, closedNow_frame k _, closedNow_leases k _, fun i => ?_, fun b => ?_, fun j => ?_⟩
    · have absent (g : Tag) : ParkedEntry.publish k g ∉ (framed race s rest h).parked := by simp [nothing]
      have copying : isCopying (framed race s rest h) = false := (isCopying_congr (framed_snapState race s rest h)).trans resting
      have frame : frameOfChange (discardStaging k (framed race s rest h)) = frameOfChange s :=
        frameOfChange_congr (by simp) (by simp)
      rw [exec_closeClient_open takes passes number ne notClosed notClosing, takeClose_silent _ _ absent, copying, closeTail_applied]
      refine congrArg _ (placed_of_eq ((committedAnswer_eq passes rfl 12 _).trans ?_) rfl)
      exact congrArg (fun f => replyTo 12 h .ok .none (.effective f)) frame
    · rw [region_discarded_closed applied, framed_region]
    · rw [bands_discarded_closed applied, framed_bands]
      simp only [framed_region]
    · rw [client_discarded_closed applied, framed_client]
      simp only [framed_region]

/-! ### A close that parks (R31, R32) -/

section
variable {k : ClientId} {u v : State}

/-- The state a close goes on from: its target's staging is discarded, and a publish of it may have been cancelled (R31, R32). -/
structure Discarding (k : ClientId) (u v : State) : Prop where
  frame : v = { u with parked := v.parked, answers := v.answers, regions := v.regions, clients := v.clients }
  regions : v.regions = (discardStaging k u).regions
  staging : ∀ j, (v.client j).owned = ((discardStaging k u).client j).owned ∧ (v.client j).moves = ((discardStaging k u).client j).moves
  terms : ∀ j, (v.client j).state = (u.client j).state ∧ (v.client j).terms = (u.client j).terms

theorem discarding_discardStaging (bands : (discardStaging k u).bands = u.bands) : Discarding k u (discardStaging k u) where
  frame := by
    refine (eq_of_tables (discardStaging_tables k u) bands).trans ?_
    rw [discardStaging_parked, discardStaging_answers]
  regions := rfl
  staging _ := ⟨rfl, rfl⟩
  terms j := ⟨discardStaging_state k j u, discardStaging_terms k j u⟩

theorem Discarding.removePublish (h : Discarding k u v) : Discarding k u (removePublish k v) where
  frame := by
    have frame := h.frame
    rw [removePublish_eq]
    exact congrArg (fun w : State => { w with
      parked := v.parked.filter fun e => !isPublishOf k e
      clients := v.clients.set k { v.client k with parkedEntry := false } }) frame
  regions := (removePublish_regions k v).trans h.regions
  staging j := by
    rw [client_removePublish]
    split_ifs
    · exact h.staging j
    · exact h.staging j
  terms j := by
    rw [client_removePublish]
    split_ifs
    · exact h.terms j
    · exact h.terms j

theorem Discarding.pushAnswer (h : Discarding k u v) (a : Answer) : Discarding k u (pushAnswer a v) where
  frame := congrArg (fun w : State => { w with answers := v.answers ++ [a] }) h.frame
  regions := h.regions
  staging := h.staging
  terms := h.terms

theorem client_pushAnswer (a : Answer) (s : State) (j : ClientId) : (pushAnswer a s).client j = s.client j := rfl

theorem Discarding.stagingDiscarded {s t : State} (h : Discarding k u v) (regions : u.regions = s.regions) (clients : u.clients = s.clients)
    (kept : t.regions = v.regions) (same : ∀ j, (t.client j).owned = (v.client j).owned ∧ (t.client j).moves = (v.client j).moves) :
    stagingDiscarded k s t :=
  stagingDiscarded_congr (stagingDiscarded_discardStaging k u) regions (fun j => by rw [client_congr clients]; exact ⟨rfl, rfl⟩)
    (kept.trans h.regions) fun j => ⟨(same j).1.trans (h.staging j).1, (same j).2.trans (h.staging j).2⟩

theorem Discarding.leasesAlike (h : Discarding k u v) (ms : List LeaseMsg) : LeasesAlike ms u v where
  counters := by rw [h.frame]
  pending := by rw [h.frame]
  period j _ := leasePeriod_congr (h.terms j).2

theorem client_closeTail (tag : Tag) (j : ClientId) (s : State) : (closeTail k tag true s).client j =
    if j = k then { s.client j with state := .closing, parkedEntry := true } else s.client j := by
  rw [closeTail_parked]
  refine (client_congr (s := s.updClient k fun c => { c with state := .closing, parkedEntry := true })
    (by rw [updClient_eq]) j).trans ?_
  rw [client_updClient]

theorem Discarding.closeTail_leases (h : Discarding k u v) (tag : Tag) : leaseStopped k u (closeTail k tag true v) := by
  have stopped := leaseStopped_of_alike (k := k) (u := v) (by rw [h.frame]) (h.leasesAlike _)
  rw [closeTail_parked]
  exact leaseStopped_congr stopped stopped.inbox.symm rfl rfl

theorem Discarding.closeTail_frame (h : Discarding k u v) (tag : Tag) (free : u.engine = .free) : closeTail k tag true v = { u with
    leaseInbox := (closeTail k tag true v).leaseInbox, counters := (closeTail k tag true v).counters
    lapsePending := (closeTail k tag true v).lapsePending
    parked := v.parked ++ [.close k tag], answers := v.answers
    regions := (closeTail k tag true v).regions, clients := (closeTail k tag true v).clients } := by
  rw [closeTail_parked, ← free]
  exact congrArg (fun w : State => { w with
    engine := u.engine, parked := v.parked ++ [ParkedEntry.close k tag], leaseInbox := []
    counters := (askLease [.stop k] v).counters, lapsePending := (askLease [.stop k] v).lapsePending
    clients := v.clients.set k { v.client k with state := .closing, parkedEntry := true } }) h.frame

/-- The CANCELLED of the target's publish is placed, and the close goes on (R32). -/
theorem goOn_cancelled_room {a : Answer} (tag : Tag) (e : Engine) (room : v.answers.length < 16) :
    goOn (placeAnswer a (.closeTail k tag true) { v with engine := e }) = closeTail k tag true (pushAnswer a v) := by
  have placed : placeAnswer a (.closeTail k tag true) { v with engine := e }
      = { pushAnswer a v with engine := .working (.closeTail k tag true) } := if_pos (decide_eq_true room)
  rw [placed, goOn_closeTail rfl, closeTail_working]

/-- The CANCELLED of the target's publish is held, and the rest of the close waits with it (R32, R82). -/
theorem goOn_cancelled_full {a : Answer} (tag : Tag) (e : Engine) (full : 16 ≤ v.answers.length) :
    goOn (placeAnswer a (.closeTail k tag true) { v with engine := e })
      = { v with engine := .stalled a (.closeTail k tag true) } := by
  have held : placeAnswer a (.closeTail k tag true) { v with engine := e }
      = { v with engine := .stalled a (.closeTail k tag true) } :=
    if_neg fun room => absurd (of_decide_eq_true room) (Nat.not_lt.mpr full)
  rw [held, goOn_rest (.inr ⟨a, _, rfl⟩)]

/-- A client record that differs in its owned count and moves alone. -/
theorem client_eq_of_terms {c d : Client} (states : c.state = d.state) (terms : c.terms = d.terms) (flags : c.parkedEntry = d.parkedEntry) :
    c = { d with owned := c.owned, moves := c.moves } := client_eq_with states terms flags

/-- The target is CLOSING with a parked entry, and other clients keep their states (R31). -/
theorem Discarding.closeTail_client {s : State} (h : Discarding k u v) (clients : u.clients = s.clients)
    (flags : ∀ j, j ≠ k → (v.client j).parkedEntry = (s.client j).parkedEntry) (tag : Tag) (j : ClientId) :
    (closeTail k tag true v).client j =
      { (if j = k then { s.client j with state := .closing, parkedEntry := true } else s.client j) with
        owned := ((closeTail k tag true v).client j).owned, moves := ((closeTail k tag true v).client j).moves } := by
  have client := client_congr clients j
  obtain ⟨states, terms⟩ := h.terms j
  rw [client] at states terms
  refine client_eq_of_terms ?_ ?_ ?_ <;> rw [client_closeTail] <;> split_ifs with same
  · rfl
  · exact states
  · exact terms
  · exact terms
  · rfl
  · exact flags j same

theorem Discarding.closeTail_staging {s : State} (h : Discarding k u v) (regions : u.regions = s.regions) (clients : u.clients = s.clients)
    (tag : Tag) : Machine.stagingDiscarded k s (closeTail k tag true v) := by
  refine h.stagingDiscarded regions clients (by rw [closeTail_parked]) fun j => ?_
  rw [client_closeTail]
  split_ifs
  · exact ⟨rfl, rfl⟩
  · exact ⟨rfl, rfl⟩

/-- The state in which a close waits on its held answer (R32, R82; log 18). -/
theorem Discarding.waits {s : State} (h : Discarding k u v) (regions : u.regions = s.regions) (clients : u.clients = s.clients)
    (answers : v.answers = u.answers) (flags : ∀ j, (v.client j).parkedEntry = if j = k then false else (s.client j).parkedEntry)
    (e : Engine) : Machine.stagingDiscarded k s { v with engine := e }
      ∧ { v with engine := e } = { u with parked := v.parked, engine := e, regions := v.regions, clients := v.clients }
      ∧ ∀ j, ({ v with engine := e } : State).client j = { s.client j with
          parkedEntry := if j = k then false else (s.client j).parkedEntry
          owned := (({ v with engine := e } : State).client j).owned, moves := (({ v with engine := e } : State).client j).moves } := by
  refine ⟨h.stagingDiscarded regions clients rfl fun j => ⟨rfl, rfl⟩, ?_, fun j => ?_⟩
  · have frame := h.frame
    rw [answers] at frame
    exact congrArg (fun w : State => { w with engine := e }) frame
  · obtain ⟨states, terms⟩ := h.terms j
    rw [client_congr clients] at states terms
    exact client_eq_with states terms (flags j)

end

/-- Settles O29: a close that parks at once, and one that cancels its target's publish first. -/
theorem closeParks : Obligations.CloseParks := by
  intro s race m rest k h closing lists takes passes number ne notClosed notClosing copying
  have run : exec (.closeClient race) s = .next (takeClose k h.tag { framed race s rest h with engine := .working .finish }) :=
    exec_closeClient_open takes passes number ne notClosed notClosing
  have regions := framed_regions race s rest h
  have clients := framed_clients race s rest h
  have free : (framed race s rest h).engine = .free := (framed_engine race s rest h).trans takes.engineFree
  have copies : isCopying (framed race s rest h) = true := (isCopying_congr (framed_snapState race s rest h)).trans copying
  have discarding := discarding_discardStaging (k := k) (bands_discardStaging lists regions (framed_bands race s rest h))
  have flags (j : ClientId) : ((discardStaging k (framed race s rest h)).client j).parkedEntry = (s.client j).parkedEntry := by simp
  refine ⟨framed race s rest h, goesOnFrom_framed race takes, fun absent => ?_, fun before after tag split only => ?_⟩
  · refine ⟨closeTail k h.tag true (discardStaging k (framed race s rest h)), ?_, ?_, discarding.closeTail_leases h.tag,
      discarding.closeTail_staging regions clients h.tag, discarding.closeTail_client clients (fun j _ => flags j) h.tag⟩
    · rw [run, takeClose_silent _ _ (by simpa using absent), copies, closeTail_working]
    · refine (discarding.closeTail_frame h.tag free).trans ?_
      rw [discardStaging_parked, discardStaging_answers, framed_parked]
  · have found : parkedPublishTag k (framed race s rest h) = some tag :=
      parkedPublishTag_of_split ((framed_parked race s rest h).trans split) only
    have cancelled := discarding.removePublish
    have parked : (removePublish k (discardStaging k (framed race s rest h))).parked = before ++ after := by
      rw [removePublish_parked, discardStaging_parked, framed_parked, split, filter_notPublish_split only]
    have flag (j : ClientId) : ((removePublish k (discardStaging k (framed race s rest h))).client j).parkedEntry
        = if j = k then false else (s.client j).parkedEntry := by
      rw [client_removePublish]
      split_ifs
      · rfl
      · exact flags j
    have waiting : (removePublish k (discardStaging k (framed race s rest h))).answers = s.answers := by simp
    rw [takeClose_cancels _ _ found, copies, cancelledAnswer_eq] at run
    by_cases room : s.answers.length < 16
    · rw [goOn_cancelled_room _ _ (by rw [waiting]; exact room)] at run
      have answered := cancelled.pushAnswer (replyTo 6 { client := k, tag := tag } .cancelled .close .none)
      have others (j : ClientId) (other : j ≠ k) : ((pushAnswer (replyTo 6 { client := k, tag := tag } .cancelled .close .none)
          (removePublish k (discardStaging k (framed race s rest h)))).client j).parkedEntry = (s.client j).parkedEntry := by
        rw [client_pushAnswer, flag, if_neg other]
      refine ⟨_, run, answered.closeTail_staging regions clients h.tag, fun _ => ⟨?_, answered.closeTail_leases h.tag,
        answered.closeTail_client clients others h.tag⟩, fun full => absurd room (Nat.not_lt.mpr full)⟩
      have frame := answered.closeTail_frame h.tag free
      have queue (a : Answer) : (pushAnswer a (removePublish k (discardStaging k (framed race s rest h)))).answers = s.answers ++ [a] :=
        congrArg (· ++ [a]) waiting
      rw [pushAnswer_parked, parked, queue] at frame
      exact frame
    · rw [goOn_cancelled_full _ _ (by rw [waiting]; exact Nat.not_lt.mp room)] at run
      obtain ⟨staging, frame, parties⟩ := cancelled.waits regions clients (waiting.trans (framed_answers race s rest h).symm) flag
        (.stalled (replyTo 6 { client := k, tag := tag } .cancelled .close .none) (.closeTail k h.tag true))
      refine ⟨_, run, staging, fun empty => absurd empty room, fun _ => ⟨frame.trans ?_, parties⟩⟩
      rw [parked]

end Sys2Proof.Machine
end

section
/-! PROOF. COPY_END_APPLICATION: the entries of the Parked List, each applied at its own moment (R82, R84, R86, R87; log 8). -/

namespace Sys2Proof.Machine

/-! ### The command -/

/-- The first entry of the Parked List is applied in the state of which it has left the list (R87). -/
def atEntry (u : State) (later : List ParkedEntry) : State :=
  { u with engine := .working .application, parked := later }

section
variable {s : State}

/-- The engine's state for an application: taken when it is FREE, gone on with when it is WORKING on it (R77, R87). -/
theorem exec_copyEndApplication (high : s.resetLow = false)
    (due : (s.engine = .free ∧ s.copyEndDue = true) ∨ s.engine = .working .application) : exec .copyEndApplication s
      = .next (applyNext { (if s.engine = .free then settleLease s else s) with engine := .working .application }) := by
  obtain ⟨free, indicated⟩ | working := due
  · refine (whileHigh_high (f := takeApplication) high).trans (congrArg _ ?_)
    rw [takeApplication, if_pos ⟨free, indicated⟩, if_pos free]
  · have other : s.engine ≠ .free := by rw [working]; exact Engine.noConfusion
    rw [exec_copyEndApplication_working high working, if_neg other, withEngine_self working]

theorem applyNext_empty (parked : s.parked = []) (e : Engine) :
    applyNext { s with engine := e } = { s with copyEndDue := false, engine := .free } := by
  unfold applyNext
  split
  · rfl
  · next e rest more => exact absurd (parked.symm.trans more) (List.cons_ne_nil e rest).symm

theorem applyNext_entry {e : ParkedEntry} {later : List ParkedEntry} (parked : s.parked = e :: later) :
    applyNext { s with engine := .working .application }
      = answered (applyEntry e (atEntry s later)).2 .application (applyEntry e (atEntry s later)).1 := by
  unfold applyNext
  split
  · next none => exact absurd (parked.symm.trans none) (List.cons_ne_nil e later)
  · next e' rest more =>
    obtain ⟨rfl, rfl⟩ := List.cons.inj (parked.symm.trans more)
    exact placeAnswer_eq_answered _ _ _

end

/-! ### One entry applied -/

section
variable (u : State) (later : List ParkedEntry) (k : ClientId) (tag : Tag)

theorem atEntry_tables : SameTables u (atEntry u later) := ⟨rfl, rfl, rfl⟩

theorem frameOfChange_atEntry : frameOfChange (atEntry u later) = frameOfChange u := rfl

theorem tables_with_leases {v t : State} (frame : tableFrame v t) : t = { v with
    regions := t.regions, bands := t.bands, clients := t.clients
    leaseInbox := t.leaseInbox, counters := t.counters, lapsePending := t.lapsePending } := by
  unfold tableFrame at frame
  rw [frame]

/-- Only the tables and the Lease Monitor change with an entry (R87). -/
theorem applyEntry_frame (e : ParkedEntry) (v : State) : (applyEntry e v).1 = { v with
    regions := (applyEntry e v).1.regions, bands := (applyEntry e v).1.bands, clients := (applyEntry e v).1.clients
    leaseInbox := (applyEntry e v).1.leaseInbox, counters := (applyEntry e v).1.counters
    lapsePending := (applyEntry e v).1.lapsePending } := by
  cases e with
  | publish k tag => exact tables_with_leases (applyPublish_tables k v)
  | close k tag => exact tables_with_leases (applyClose_tables k v)
  | clearAll tag => exact applyClear_eq v

theorem leasesKept_atEntry {t : State} (frame : tableFrame (atEntry u later) t) : leasesKept u t :=
  leasesKept_of_tables (s := atEntry u later) frame

theorem publishRefused_leavePublishing {v : State} {a b : RegionId} (same : SameTables u v) (named : overlapNamed k u a b) :
    publishRefused k u (leavePublishing k v) { code := .guardOverlap, detail := .none, fields := .overlap a b } where
  regions := (State.updClient_regions k _ v).trans same.regions
  bands := (State.updClient_bands k _ v).trans same.bands
  clients := by
    rw [leavePublishing, updClient_eq, same.clients, client_congr same.clients]
  reply := ⟨a, b, named, rfl⟩

theorem closeApplied_congr {k : ClientId} {u v t : State} (same : SameTables u v) (h : closeApplied k v t) : closeApplied k u t := by
  obtain ⟨regions, bands, clients⟩ := h
  simp only [region_congr same.regions, same.bands, client_congr same.clients] at regions bands clients
  exact ⟨regions, bands, clients⟩

theorem clearApplied_applyClear {u v : State} (same : SameTables u v) : clearApplied u (applyClear v) where
  regions := region_applyClear v
  bands := applyClear_bands v
  clients j := by
    rw [client_applyClear, client_congr same.clients]
    rfl

/-- A parked publish goes through or is refused (R66 to R72, R84). -/
theorem entryApplied_publish : entryApplied (.publish k tag) u (applyEntry (.publish k tag) (atEntry u later)).1
    (applyEntry (.publish k tag) (atEntry u later)).2 := by
  have same := atEntry_tables u later
  have entry : applyEntry (.publish k tag) (atEntry u later) = ((applyPublish k (atEntry u later)).1,
    { kind := 6, header := some { client := k, tag := tag }, reply := (applyPublish k (atEntry u later)).2 }) := rfl
  rw [entry]
  refine ⟨rfl, rfl, leasesKept_atEntry u later (applyPublish_tables k _), fun laps => ?_, fun apart => ?_⟩
  · obtain ⟨i, j, clashes⟩ := laps
    obtain ⟨a, b, named, applied⟩ := applyPublish_overlap (k := k) (s := atEntry u later) (by rw [clash_congr same]; exact clashes)
    rw [overlapNamed_congr same] at named
    rw [applied]
    exact publishRefused_leavePublishing u k same named
  · have applied := applyPublish_apart (k := k) (s := atEntry u later) (by rw [clash_congr same]; exact apart)
    rw [applied, ← frameOfChange_atEntry u later]
    exact (publishApplied_publishSteps k (atEntry u later)).congr same (.refl _)

/-- A parked close is applied (R33, R84). -/
theorem entryApplied_close : entryApplied (.close k tag) u (applyEntry (.close k tag) (atEntry u later)).1
    (applyEntry (.close k tag) (atEntry u later)).2 := by
  rw [applyEntry_close]
  refine ⟨?_, leasesKept_atEntry u later (applyClose_tables k _), closeApplied_congr (atEntry_tables u later) (closeApplied_applyClose k _)⟩
  rw [committedAnswer, frameOfChange_atEntry]

/-- A parked clear is applied (R84, R90). -/
theorem entryApplied_clearAll : entryApplied (.clearAll tag) u (applyEntry (.clearAll tag) (atEntry u later)).1
    (applyEntry (.clearAll tag) (atEntry u later)).2 := by
  have counters : (applyClear (atEntry u later)).counters = (applyClear u).counters :=
    applyClear_counters rfl ⟨rfl, rfl, fun _ _ => rfl⟩
  rw [applyEntry_clearAll]
  refine ⟨?_, leasesCleared_congr (applyClear_leases u) rfl counters rfl, clearApplied_applyClear (atEntry_tables u later)⟩
  rw [committedAnswer, frameOfChange_atEntry]

end

/-- Settles O34: an empty Parked List, and its first entry applied and answered. -/
theorem copyEndApplied : Obligations.CopyEndApplied := by
  intro s high due u
  have run := exec_copyEndApplication high due
  have parked : u.parked = s.parked := by
    show (if s.engine = .free then settleLease s else s).parked = s.parked
    split_ifs <;> simp
  refine ⟨fun none => ?_, fun e later entries => ?_⟩
  · exact run.trans (congrArg _ (applyNext_empty (parked.trans none) _))
  · refine ⟨(applyEntry e (atEntry u later)).1, (applyEntry e (atEntry u later)).2,
      run.trans (congrArg _ (applyNext_entry (parked.trans entries))), applyEntry_frame e (atEntry u later), ?_⟩
    cases e with
    | publish k tag => exact entryApplied_publish u later k tag
    | close k tag => exact entryApplied_close u later k tag
    | clearAll tag => exact entryApplied_clearAll u later tag

end Sys2Proof.Machine
end
